-- ==== Sys2Proof/Word.lean ====
section
/-! DEFINITION. The word types of the Lospar W2 and their plainest arithmetic. -/

namespace Sys2Proof

/-- One byte: a page byte, a record byte, a byte of a management frame. -/
abbrev Byte := BitVec 8

/-- One flash halfword, the unit of a program (R48, R101), and one host data word (R115). -/
abbrev HalfWord := BitVec 16

/-- A page version, 12 bits, compared modulo 4096 (R7). -/
abbrev Version := BitVec 12

/-- The byte at the even address, data lines 0 to 7 (spec 10, 11.1). -/
def HalfWord.low (h : HalfWord) : Byte := h.setWidth 8

/-- The byte at the odd address, data lines 8 to 15 (spec 10, 11.1). -/
def HalfWord.high (h : HalfWord) : Byte := (h >>> 8).setWidth 8

/-- The halfword with the given even-address and odd-address bytes. -/
def halfOf (low high : Byte) : HalfWord := high ++ low

/-- A number as one byte, its low eight bits. -/
def byteOf (n : Nat) : Byte := BitVec.ofNat 8 n

/-- A number as two bytes, most significant first: the order of management frames (spec 10, 11.6). -/
def bytesBE16 (n : Nat) : List Byte := [byteOf (n / 256), byteOf n]

end Sys2Proof
end

