-- ==== Sys2Proof/Syntax.lean ====
section
/-! DEFINITION. The commands of the part: one constructor per row of spec/opcode_table.json, with its operands. -/

namespace Sys2Proof

/-- A flash bank letter (spec 00, 1.6). -/
inductive BankId where
  | a
  | b
  deriving DecidableEq, Repr

/-- The BANKS strap: low selects one bank, high two (spec 10, 11.7; R2). -/
inductive Strap where
  | one
  | two
  deriving DecidableEq, Repr

/-- What a bank answers to an array read. A working flash returns what its array holds; a bank that does not
answer yields whatever its reads returned (R135), given here byte by byte. -/
inductive ReadAnswer where
  /-- The bytes the array holds at the addresses read. -/
  | array
  /-- Some other bytes; a byte beyond the list reads FFh, the idle level of the port (log 6). -/
  | other (bytes : List Byte)
  deriving DecidableEq, Repr

/-- A command of the part. -/
inductive Instr where
  /-- Supply applied, with the BANKS pin at this level; taken as a pin reset (R129). -/
  | powerOn (banks : Strap)
  /-- RESET asserted, with the BANKS pin at this level (R127). -/
  | resetAsserted (banks : Strap)
  /-- RESET released (R135). -/
  | resetReleased
  /-- Chip select with the read strobe: halfword address and the two byte enables (R115, R121). -/
  | hostReadArrival (addr : BitVec 22) (lower upper : Bool)
  /-- Chip select with the write strobe: halfword address, byte enables and data lines (R115, R120). -/
  | hostWriteArrival (addr : BitVec 22) (lower upper : Bool) (data : HalfWord)
  /-- Chip select with both strobes (R115). -/
  | cycleBothStrobes (addr : BitVec 22) (lower upper : Bool)
  /-- The host withdraws the strobes of a DONE cycle (R116). -/
  | cycleEnd
  /-- The host withdraws the strobes of a HOLDING cycle (R125). -/
  | cycleAbandoned
  /-- The hold timer runs out (R124). -/
  | holdTimerExpiry
  /-- The idle timer of this staging entry runs out (R32). -/
  | idleTimerExpiry (entry : Fin 8)
  /-- The age timer of this staging entry runs out (R33). -/
  | ageTimerExpiry (entry : Fin 8)
  /-- A bank returns the data of its array read (R100). -/
  | arrayReadDone (bank : BankId) (answer : ReadAnswer)
  /-- The flash reports the end of a halfword program (R101). -/
  | programEnd (bank : BankId)
  /-- The verify read of a program returns this halfword (R101; log 7). -/
  | programVerifyDone (bank : BankId) (value : HalfWord)
  /-- The flash reports erase complete, with pass or fail, in ERASE (R102). -/
  | eraseComplete (bank : BankId) (pass : Bool)
  /-- The flash reports erase complete, with pass or fail, in SUSPENDING (R105). -/
  | eraseCompleteInSuspending (bank : BankId) (pass : Bool)
  /-- The flash acknowledges a suspend (R104). -/
  | suspendAcknowledged (bank : BankId)
  /-- The quantum timer runs out (R103). -/
  | quantumTimerExpiry (bank : BankId)
  /-- The program timer runs out (R109). -/
  | programTimeout (bank : BankId)
  /-- The suspend-acknowledge timer runs out (R109). -/
  | suspendAckTimeout (bank : BankId)
  /-- An erase's running time reaches its captured erase timeout (R108). -/
  | eraseTimeout (bank : BankId)
  /-- The flash reports the bank reset complete (R110). -/
  | bankResetComplete (bank : BankId)
  /-- The bank reset timer runs out (R110). -/
  | bankResetTimerExpiry (bank : BankId)
  /-- PFAIL becomes asserted (R154). -/
  | pfailAsserted
  /-- PFAIL is released (R156). -/
  | pfailReleased
  /-- The condition a DRAINING state waits for is true (R155). -/
  | drainFinish
  /-- The banks come to rest in an abandoned format with PFAIL asserted (R159). -/
  | formatDrainedAssert
  /-- An abandoned format ends (R149). -/
  | formatAbandonEnd
  /-- The mount chooses one candidate per page (R139). -/
  | mountCandidateChoice
  /-- The mount ends (R142). -/
  | mountEnd
  /-- The volume engine makes its first format request to this bank (R145). -/
  | formatBankStart (bank : BankId)
  /-- The volume engine starts to program the volume record (R147). -/
  | formatVolumeRecord
  /-- SSEL asserted (R163). -/
  | frameStart
  /-- SSEL deasserted (R165). -/
  | frameEnd
  /-- A command byte outside 01h to 0Fh completes (R166). -/
  | unknownCommand (code : Byte)
  /-- IDENTIFY is taken (R169). -/
  | identify
  /-- STATUS is taken (R169). -/
  | status
  /-- READ FLAGS is taken (R177). -/
  | readFlags
  /-- CLEAR FLAGS is taken (R177). -/
  | clearFlags (mask : BitVec 16)
  /-- SET ALERT MASK is taken (R178). -/
  | setAlertMask (mask : BitVec 16)
  /-- READ PARAM is taken (R174). -/
  | readParam (id : Byte)
  /-- WRITE PARAM is taken (R174). -/
  | writeParam (id : Byte) (value : BitVec 16)
  /-- FLUSH is taken (R44). -/
  | flush
  /-- RESUME COMMIT is taken (R69). -/
  | resumeCommit
  /-- FORMAT with argument L is taken (R144). -/
  | format (pages : BitVec 16)
  /-- RESTART is taken (R160). -/
  | restart
  /-- QUERY PAGE is taken (R170). -/
  | queryPage (lpn : BitVec 16)
  /-- QUERY BLOCK is taken: bank byte and index byte (R171). -/
  | queryBlock (bank index : Byte)
  /-- READ COUNTER is taken (R180). -/
  | readCounter (id : Byte)
  /-- CLEAR COUNTERS is taken (R180). -/
  | clearCounters
  /-- A rising edge of SCK with SDI at this level (R163). -/
  | sckRisingEdge (sdi : Bool)
  deriving DecidableEq, Repr

end Sys2Proof
end

