-- ==== Sys2Proof/Decode.lean ====
section
/-! DEFINITION. The decoder of table words. No row of spec/opcode_table.json has bits (every row's list of fields is
empty and no row has a fixed pattern), so no word spells a command and the decoder answers none. Commands reach the
part as terms of `Instr`. The management port's own decoding of SPI bytes is a command's effect (SCK_RISING_EDGE)
and stands in Machine/Management.lean. -/

namespace Sys2Proof

/-- The command a word of the table's bits spells: none, for every width and every word. -/
def decodeTableWord (nbits w : Nat) : Option Instr :=
  match nbits, w with
  | _, _ => none

end Sys2Proof
end

