-- ==== Sys2Proof/Config.lean ====
section
/-! DEFINITION. What the part fixes (sizes, limits, codes) and the free values the spec leaves open. -/

namespace Sys2Proof.Config

/-- Bytes in a logical page and in a slot (R1, R3). -/
def pageBytes : Nat := 512
/-- Bytes in an erase block (spec 10, 11.1). -/
def blockBytes : Nat := 65536
/-- Bytes in a flash bank: 4 MiB (spec 00, 1.2). -/
def bankBytes : Nat := 4194304
/-- Data slots in a data block (R3). -/
def dataSlots : Nat := 127
/-- Smallest logical capacity (R1). -/
def minPages : Nat := 256
/-- Largest logical capacity with two banks (R1). -/
def maxPagesTwo : Nat := 15621
/-- Largest logical capacity with one bank (R1). -/
def maxPagesOne : Nat := 7493
/-- The floor of U − L below which CAPACITY is raised (R89). -/
def capacityFloor : Nat := 381
/-- Failed attempts that end a commit or a move (R61, R65). -/
def maxAttempts : Nat := 3
/-- Free blocks a host commit needs in ACTIVE before it takes one (R21). -/
def hostReserve : Nat := 3
/-- The saturated erase count (R9). -/
def maxEraseCount : Nat := 16777215
/-- Format mark of a readable volume record (R136). -/
def formatMark : HalfWord := 0x4C57#16
/-- IDENTIFY's part code (R169). -/
def partCode : Nat := 0x5732
/-- IDENTIFY's revision (R169). -/
def partRevision : Nat := 0x0001

/-- FREE VALUE (log 8): the bits that a halfword program cut short leaves uncleared. The spec says only that some of the
bits to be cleared are cleared (R16, R109) and which codes are not left; the argument is the model's count of such
events. -/
opaque halfDoneBits : Nat → HalfWord

/-- FREE VALUE (log 9): the byte found at an address of a data block whose erase did not complete with pass, and the bits
that such an erase has set in a byte of A0; the first argument is the model's count of such events. -/
opaque spoiledByte : Nat → Nat → Byte

end Sys2Proof.Config
end

