-- ==== Sys2Proof/Machine/State.lean ====
section
/-! DEFINITION. Everything the spec gives the part to hold, as plain data; the outcomes a command can stop with; and
the part right after a pin reset. The names are the manual's. -/

namespace Sys2Proof.Machine

/-- Why the part stops with a fault. No rule of the spec stops the part: an error is an effect on State (a faulted
cycle, a result byte, a flag, a latch cause), so no command raises a fault. Safe: nothing is cut off. -/
inductive Fault where
  deriving DecidableEq, Repr

/-- Why a command has no meaning. -/
inductive Refusal where
  /-- Raised by `exec` for a row whose meaning is not written yet, under the row's mnemonic. Safe: such a command
  has no next state. No arm raises it now. -/
  | notModelled (mnemonic : String)
  deriving DecidableEq, Repr

/-! ## References -/

/-- A block reference by its code: 0 to 63 are A0 to A63, 64 to 127 are B0 to B63; numeric order is block-reference
order (spec 00, 1.6; spec 10, 11.6). -/
abbrev BlockRef := Fin 128

/-- A slot reference: block and slot number, 0 to 127 (spec 00, 1.6). -/
structure SlotRef where
  block : BlockRef
  slot : Fin 128
  deriving DecidableEq, Repr

/-! ## Flash -/

/-- The array of one flash bank. -/
structure Flash where
  /-- Byte address in the bank and byte, addresses strictly rising, no entry equal to what an unlisted address of
  its block reads as. -/
  cells : List Host.Cell
  /-- Blocks (by index in the bank) whose last erase did not complete with pass, each with the index of the free
  values its unlisted bytes read as (log 9); rising. -/
  spoiled : List (Nat × Nat)
  deriving DecidableEq, Repr

/-! ## Page map -/

/-- A mapped page map entry: the slot that holds the page, and the page's version (R4). -/
structure MapEntry where
  slot : SlotRef
  version : Version
  deriving DecidableEq, Repr

/-! ## Staging buffer -/

/-- Where a staging entry stands (R23). -/
inductive EntryState where
  | empty
  | gathering
  | closed
  | committing
  | stuck
  deriving DecidableEq, Repr

/-- A staging entry (R23). Image and mask are one store: `staged` lists the covered offsets, rising, each with its
image byte; the image byte of every other offset is FFh. -/
structure Entry where
  state : EntryState
  page : Option Nat
  staged : List (Nat × Byte)
  openSeq : BitVec 32
  /-- Idle timer: stopped, or the remaining time in µs. -/
  idle : Option Nat
  /-- Age timer: stopped, or the remaining time in µs (log 22). -/
  age : Option Nat
  attempts : Nat
  cohort : Bool
  deriving DecidableEq, Repr

/-- The values of an EMPTY entry (R23). -/
def Entry.blank : Entry :=
  { state := .empty, page := none, staged := [], openSeq := 0, idle := none, age := none, attempts := 0,
    cohort := false }

/-- The staging buffer (R23, R24, R37). `queue` is the close order of the CLOSED entries. -/
structure Staging where
  entries : Vector Entry 8
  nextOpen : BitVec 32
  queue : List (Fin 8)
  deriving DecidableEq, Repr

/-! ## Block manager -/

/-- Where a data block stands (R72). -/
inductive BlockState where
  | free
  | opened
  | full
  | victim
  | pendingErase
  | erasing
  | retired
  deriving DecidableEq, Repr

/-- A block record (R72). -/
structure BlockRecord where
  state : BlockState
  eraseCount : Nat
  claimed : Nat
  live : Nat
  condemned : Bool
  deriving DecidableEq, Repr

/-- The reclaim kind (R72). -/
inductive ReclaimKind where
  | none
  | space
  | levelling
  | condemned
  deriving DecidableEq, Repr

/-- The block manager's state (R72). The free pool and the retired count are functions of the records. -/
structure BlockManager where
  /-- The block table, rising in block reference; empty when no table is held (R90, R92). -/
  records : List (BlockRef × BlockRecord)
  /-- Open block and its next slot. -/
  openBlock : Option (BlockRef × Nat)
  reclaim : ReclaimKind
  victim : Option BlockRef
  scanPos : Nat
  /-- PENDING-ERASE blocks in the order they joined (R84). -/
  eraseQueue : List BlockRef
  /-- The block whose slot 127 has been taken and whose page is not yet in it (R75). -/
  awaiting : Option BlockRef
  deriving DecidableEq, Repr

/-! ## Page mover -/

/-- What an operation of the page mover is (R47): a commit of an entry with the policy read at its start, or a
reclaim move with its failed attempts. -/
inductive OpKind where
  | commit (entry : Fin 8) (policy : Bool)
  | move (attempts : Nat)
  deriving DecidableEq, Repr

/-- The step an operation has reached: which completion it waits for. -/
inductive Phase where
  /-- The array read of the source slot into the mover buffer (R53, R64). -/
  | fill
  /-- The in-place program of this halfword (R55). -/
  | inPlace (half : Nat)
  /-- The IN USE program of a newly taken block (R57). -/
  | awaitInUse
  /-- The claim's first program (R59). -/
  | claimPage
  /-- The claim's second program (R59). -/
  | claimState
  /-- The data program of this halfword (R59). -/
  | data (half : Nat)
  /-- The VALID program (R59). -/
  | valid
  /-- The STALE attempt on a failed new slot (R61). -/
  | staleNew
  /-- The STALE program of the source slot (R60). -/
  | staleOld
  deriving DecidableEq, Repr

/-- The operation record (R47). -/
structure OpRecord where
  kind : OpKind
  page : Nat
  /-- Source slot and source version; absent for an UNMAPPED page. -/
  source : Option MapEntry
  newVersion : Version
  newSlot : Option SlotRef
  phase : Phase
  deriving DecidableEq, Repr

/-- What the mover is doing: idle; reading owner entries of the victim for a live slot (R63); or an operation. -/
inductive Activity where
  | idle
  | scanning
  | running (op : OpRecord)
  deriving DecidableEq, Repr

/-- Which source the arbiter granted last (R47). -/
inductive LastGrant where
  | none
  | commit
  | move
  deriving DecidableEq, Repr

/-- The page mover's state (R47). -/
structure Mover where
  activity : Activity
  buffer : List Byte
  lastGrant : LastGrant
  reserveHold : Bool
  deriving DecidableEq, Repr

/-! ## Bank controllers -/

/-- Bank state (R95). -/
inductive BankState where
  | idle
  | read
  | program
  | erase
  | suspending
  | suspended
  | resetting
  deriving DecidableEq, Repr

/-- A descriptor program (R10, R181). -/
inductive DescProgram where
  | fresh (count : Nat)
  | inUse (countLow : Byte)
  | retired (count : Nat)
  deriving DecidableEq, Repr

/-- How far a descriptor program's sequence has come (R181): RETIRED's array read to be made, or a halfword of
slot 0 to be programmed and those after it. -/
inductive DescStep where
  | read
  | write (half : Fin 256) (value : HalfWord) (rest : List (Fin 256 × HalfWord))
  deriving DecidableEq, Repr

/-- What a mover, descriptor or volume request asks of the bank (R97). -/
inductive ReqOp where
  /-- Array read of a whole slot. -/
  | readSlot (slot : SlotRef)
  /-- Array read of the owner entry of a data slot. -/
  | readEntry (slot : SlotRef)
  /-- Array read of a block descriptor. -/
  | readDescriptor (block : BlockRef)
  /-- Program of one halfword of a slot. -/
  | program (slot : SlotRef) (half : Fin 256) (value : HalfWord)
  /-- Program of the entry state field alone of a data slot's owner entry (R12: VALID, STALE). -/
  | mark (slot : SlotRef) (code : BitVec 4)
  /-- A descriptor program (R181). -/
  | descriptor (block : BlockRef) (prog : DescProgram) (step : DescStep)
  deriving DecidableEq, Repr

/-- A request in the mover, descriptor or volume slot. `moment` is when it was handed over (R98); `begun` says
whether the bank has begun it (R149). -/
structure Request where
  op : ReqOp
  moment : Nat
  begun : Bool
  deriving DecidableEq, Repr

/-- A request in the host read slot: one halfword of a data slot, and whether it has been withdrawn (R97, R99). -/
structure HostRead where
  slot : SlotRef
  offset : Nat
  withdrawn : Bool
  deriving DecidableEq, Repr

/-- Who receives an erase's result (R96). -/
inductive EraseRequester where
  | blockManager
  | volumeEngine
  deriving DecidableEq, Repr

/-- A request in the erase slot (R97). -/
structure EraseRequest where
  block : BlockRef
  requester : EraseRequester
  deriving DecidableEq, Repr

/-- Request classes that are served by reads and programs (R97). -/
inductive ReqClass where
  | host
  | mover
  | descriptor
  | volume
  deriving DecidableEq, Repr

/-- What the flash is carrying out for a request (R100, R101). -/
inductive Action where
  | read (slot : SlotRef) (offset len : Nat)
  | program (slot : SlotRef) (half : Fin 256) (value : HalfWord)
  | verify (slot : SlotRef) (half : Fin 256) (value : HalfWord)
  deriving DecidableEq, Repr

/-- The request being carried out: its class and the action. -/
structure Active where
  cls : ReqClass
  act : Action
  deriving DecidableEq, Repr

/-- Why the current suspend was requested (R96). -/
inductive SuspendCause where
  | none
  | read
  | power
  deriving DecidableEq, Repr

/-- The erase context (R96). -/
structure EraseContext where
  block : BlockRef
  requester : EraseRequester
  /-- µs spent in ERASE and SUSPENDING. -/
  runningTime : Nat
  /-- ms. -/
  eraseTimeout : Nat
  /-- µs. -/
  quantum : Nat
  suspendLimit : Nat
  suspendCount : Nat
  /-- Remaining µs, or none once it has run out. -/
  quantumTimer : Option Nat
  cause : SuspendCause
  powerHold : Bool
  deriving DecidableEq, Repr

/-- A bank controller (R95 to R98). -/
structure BankCtl where
  state : BankState
  hostRead : Option HostRead
  mover : Option Request
  descriptor : Option Request
  volume : Option Request
  erase : Option EraseRequest
  active : Option Active
  context : Option EraseContext
  programTimer : Option Nat
  suspendTimer : Option Nat
  resetTimer : Option Nat
  /-- Count of hand-overs, from which each request's moment is taken. -/
  handOvers : Nat
  deriving DecidableEq, Repr

/-- A bank controller after a reset (R113). -/
def BankCtl.reset : BankCtl :=
  { state := .idle, hostRead := none, mover := none, descriptor := none, volume := none, erase := none,
    active := none, context := none, programTimer := none, suspendTimer := none, resetTimer := none,
    handOvers := 0 }

/-! ## Host port -/

/-- Port state (R114). -/
inductive PortState where
  | inReset
  | idle
  | holding
  | done
  deriving DecidableEq, Repr

/-- Kind of a host cycle (R114); `both` is a cycle with both strobes (R115). -/
inductive CycleKind where
  | read
  | write
  | both
  deriving DecidableEq, Repr

/-- What a HOLDING cycle is waiting for (R114). -/
inductive Wait where
  | none
  | mount
  | staging
  | bank
  deriving DecidableEq, Repr

/-- How a cycle completed: FAULT or not, and the halfword driven, if any (R114, R116). -/
structure CycleOutcome where
  fault : Bool
  data : Option HalfWord
  deriving DecidableEq, Repr

/-- The current cycle record (R114). -/
structure Cycle where
  kind : CycleKind
  page : Nat
  offset : Nat
  lower : Bool
  upper : Bool
  /-- Write data as captured; a write only. -/
  data : Option HalfWord
  arrival : Nat
  holdLimit : Nat
  wait : Wait
  /-- Staged byte for the lower and the upper lane, taken at resolution; a read only. -/
  stagedLow : Option Byte
  stagedHigh : Option Byte
  /-- Slot taken from the page map at resolution; absent for UNMAPPED and before resolution. -/
  slot : Option SlotRef
  /-- The bank read has been handed to its bank's host read slot (R99). -/
  handed : Bool
  outcome : Option CycleOutcome
  deriving DecidableEq, Repr

/-- The host port (R114). -/
structure Port where
  state : PortState
  holdTimer : Option Nat
  cycle : Option Cycle
  deriving DecidableEq, Repr

/-! ## Service controller and drain control -/

/-- Service state (R129). -/
inductive ServiceState where
  | mounting
  | unformatted
  | formatting
  | active
  | draining
  | drained
  deriving DecidableEq, Repr

/-- The read-only latch: its three causes (R132). -/
structure Latch where
  capacity : Bool
  commitStuck : Bool
  reclaimHalted : Bool
  deriving DecidableEq, Repr

/-- The service controller (R2, R129, R131, R132). -/
structure Service where
  state : ServiceState
  /-- BANKS strap as read at the last reset. -/
  strap : Strap
  latch : Latch
  /-- L, when in force. -/
  pages : Option Nat
  bankCount : Option Nat
  serial : Option (BitVec 16)
  deriving DecidableEq, Repr

/-- Return state of drain control (R151). -/
inductive ReturnState where
  | active
  | unformatted
  deriving DecidableEq, Repr

/-- Drain control (R151). -/
structure Drain where
  line : Bool
  restartPending : Bool
  returnState : Option ReturnState
  deriving DecidableEq, Repr

/-! ## Volume engine -/

/-- What the mount reads from a descriptor's state code (R137). -/
inductive ScanClass where
  | fresh
  | inUse
  | retired
  | unknown
  deriving DecidableEq, Repr

/-- What the mount keeps of a scanned block: class, count as read if known, claimed count (R137, R138). -/
structure ScanRecord where
  block : BlockRef
  cls : ScanClass
  count : Option Nat
  claimed : Nat
  deriving DecidableEq, Repr

/-- A candidate for a page (R138). -/
structure Candidate where
  slot : SlotRef
  page : Nat
  version : Version
  deriving DecidableEq, Repr

/-- Where a mount stands on one bank. -/
inductive MountPhase where
  /-- The bank is not fitted. -/
  | absent
  /-- The bank reset at the start of the mount (R135). -/
  | resetting
  /-- The bank reset has ended; the volume record has not been found valid yet. -/
  | waiting
  /-- The volume record is being read (bank A). -/
  | record
  /-- Slot 0 of the first of these blocks is being read (R137). -/
  | scanning (todo : List BlockRef)
  /-- Every block of the bank has been scanned. -/
  | scanned
  /-- The first of these owner entries is being marked STALE (R140). -/
  | repairing (todo : List SlotRef)
  /-- Every repair of the bank has ended. -/
  | ended
  deriving DecidableEq, Repr

/-- A mount on one bank: its phase, and what the scan has found, in scan order. -/
structure MountBank where
  phase : MountPhase
  found : List ScanRecord
  candidates : List Candidate
  bad : List SlotRef
  deriving DecidableEq, Repr

/-- A mount in progress (R135 to R142). -/
structure MountWork where
  a : MountBank
  b : MountBank
  /-- The volume record was found valid (R136). -/
  valid : Bool
  /-- At least one repair has been requested (R140). -/
  repaired : Bool
  /-- Blocks in which a repair failed (R140). -/
  condemned : List BlockRef
  deriving DecidableEq, Repr

/-- Where a format stands on one bank. -/
inductive FormatPhase where
  | absent
  /-- No request made to the bank yet (R145). -/
  | notStarted
  /-- The descriptor of the first of these blocks is being read (step 1). -/
  | reading (todo : List BlockRef)
  /-- Step 1 has ended on the bank. -/
  | readDone
  /-- The first of these blocks is being erased, with this erase count held for it (step 3). -/
  | erasing (count : Nat) (todo : List BlockRef)
  /-- The FRESH program of the first of these blocks, with this count, is in progress (step 3). -/
  | freshing (count : Nat) (todo : List BlockRef)
  /-- The RETIRED program of the first of these blocks, with this count, is in progress (step 3). -/
  | retiring (count : Nat) (todo : List BlockRef)
  /-- Step 3 has ended on the bank. -/
  | finished
  deriving DecidableEq, Repr

/-- A format on one bank: its phase; the blocks read in step 1, with whether RETIRED and the count if known; the
block records made so far. -/
structure FormatBank where
  phase : FormatPhase
  known : List (BlockRef × Bool × Option Nat)
  made : List (BlockRef × BlockRecord)
  deriving DecidableEq, Repr

/-- Which step of a format the whole part is at (R145 to R147). -/
inductive FormatStage where
  | reading
  | erasingVolume
  | blocks
  /-- The volume record's halfword with this number is being programmed. -/
  | record (half : Fin 256)
  deriving DecidableEq, Repr

/-- A format in progress (R144). -/
structure FormatWork where
  pages : Nat
  banks : Strap
  stage : FormatStage
  a : FormatBank
  b : FormatBank
  abandoned : Bool
  deriving DecidableEq, Repr

/-- The volume engine. -/
inductive Engine where
  | idle
  | mount (work : MountWork)
  | format (work : FormatWork)
  deriving DecidableEq, Repr

/-! ## Management port -/

/-- The parameter set (R173). -/
structure Params where
  commitDelay : Nat
  ageLimit : Nat
  holdLimit : Nat
  inPlacePolicy : Nat
  reclaimThreshold : Nat
  wearLimit : Nat
  eraseQuantum : Nat
  suspendLimit : Nat
  programTimeout : Nat
  eraseTimeout : Nat
  deriving DecidableEq, Repr

/-- The defaults of R173. -/
def Params.defaults : Params :=
  { commitDelay := 2000, ageLimit := 50, holdLimit := 1000, inPlacePolicy := 0, reclaimThreshold := 4,
    wearLimit := 1024, eraseQuantum := 2000, suspendLimit := 32, programTimeout := 500, eraseTimeout := 4000 }

/-- Frame receiver state (R163). -/
inductive RxState where
  | idle
  | command
  | arguments
  | response
  deriving DecidableEq, Repr

/-- The frame receiver (R163, R164). -/
structure Receiver where
  state : RxState
  /-- Bits sampled of the byte in progress, first bit first. -/
  bits : List Bool
  /-- The command byte, once complete. -/
  cmd : Option Byte
  /-- Complete argument bytes. -/
  args : List Byte
  /-- The captured response: result byte, then data. -/
  response : List Byte
  /-- Response bits that rising edges have read out. -/
  shifted : Nat
  deriving DecidableEq, Repr

/-- The receiver in IDLE (R163). -/
def Receiver.reset : Receiver :=
  { state := .idle, bits := [], cmd := none, args := [], response := [], shifted := 0 }

/-- The management port (R163, R173, R176, R178, R179). -/
structure Mgmt where
  params : Params
  flags : BitVec 16
  alertMask : BitVec 16
  counters : Vector (BitVec 32) 10
  receiver : Receiver
  deriving DecidableEq, Repr

/-! ## Pins -/

/-- The host strobes while chip select is asserted, with the lines that go with them (R115). -/
inductive Strobes where
  | none
  | read (addr : BitVec 22) (lower upper : Bool)
  | write (addr : BitVec 22) (lower upper : Bool) (data : HalfWord)
  | both (addr : BitVec 22) (lower upper : Bool)
  deriving DecidableEq, Repr

/-- Levels of the input pins that the rules refer to (spec 10, 11.7). RESET is asserted exactly while the host port
is IN RESET (R114). -/
structure Pins where
  pfail : Bool
  ssel : Bool
  banks : Strap
  strobes : Strobes
  deriving DecidableEq, Repr

/-! ## The whole part -/

/-- The state of the part. `now` (µs), `freeNext` (index of the next free value) and `pending` (the waiting commands,
first in first out) are the model's own. -/
structure State where
  pins : Pins
  service : Service
  drain : Drain
  port : Port
  staging : Staging
  pageMap : List (Nat × MapEntry)
  mover : Mover
  blocks : BlockManager
  bankA : BankCtl
  bankB : BankCtl
  flashA : Flash
  flashB : Flash
  engine : Engine
  mgmt : Mgmt
  now : Nat
  freeNext : Nat
  pending : List Instr
  deriving DecidableEq, Repr

/-- The latch with no cause (R132). -/
def Latch.none : Latch := { capacity := false, commitStuck := false, reclaimHalted := false }

/-- The staging buffer after a reset (R46). -/
def Staging.reset : Staging := { entries := Vector.replicate 8 Entry.blank, nextOpen := 0, queue := [] }

/-- The page mover after a reset (R71). -/
def Mover.reset : Mover :=
  { activity := .idle, buffer := List.replicate 512 0xFF#8, lastGrant := .none, reserveHold := false }

/-- The block manager holding no table (R92). -/
def BlockManager.reset : BlockManager :=
  { records := [], openBlock := none, reclaim := .none, victim := none, scanPos := 1, eraseQueue := [],
    awaiting := none }

/-- The management port after a pin reset (R167, R173, R176, R178, R179). -/
def Mgmt.reset : Mgmt :=
  { params := .defaults, flags := 0, alertMask := 0, counters := Vector.replicate 10 0, receiver := .reset }

/-- An erased array (log 5). -/
def Flash.erased : Flash := { cells := [], spoiled := [] }

/-- The part right after a pin reset or power-on, RESET still asserted (R127, R129, R135, R151), on a board with two
banks of erased flash, PFAIL and SSEL deasserted and no host strobe (log 1, 5, 14). -/
def State.reset : State :=
  { pins := { pfail := false, ssel := false, banks := .two, strobes := .none }
    service := { state := .mounting, strap := .two, latch := .none, pages := none, bankCount := none,
                 serial := none }
    drain := { line := false, restartPending := false, returnState := none }
    port := { state := .inReset, holdTimer := none, cycle := none }
    staging := .reset
    pageMap := []
    mover := .reset
    blocks := .reset
    bankA := .reset
    bankB := .reset
    flashA := .erased
    flashB := .erased
    engine := .idle
    mgmt := .reset
    now := 0
    freeNext := 0
    pending := [] }

end Sys2Proof.Machine
end

