-- ==== Sys2Proof/Machine/Operands.lean ====
section
/-! DEFINITION. Operand forms: references and flash addresses, the records in flash (descriptor, owner entry, volume
record) as bytes and halfwords, the host cycle's address and lanes, and the bits of a management frame. -/

namespace Sys2Proof.Machine

/-! ## References and addresses (spec 00, 1.6; spec 10, 11.1) -/

/-- Bank of a block reference. -/
def BlockRef.bank (b : BlockRef) : BankId := if b.val < 64 then .a else .b

/-- Index of a block within its bank, 0 to 63. -/
def BlockRef.index (b : BlockRef) : Nat := b.val % 64

/-- Bank of a slot. -/
def SlotRef.bank (s : SlotRef) : BankId := BlockRef.bank s.block

/-- Scan order over slots: block-reference order, then slot number (R7). -/
def SlotRef.scanKey (s : SlotRef) : Nat := s.block.val * 128 + s.slot.val

/-- Byte address of an offset of a slot within its bank (spec 10, 11.1). -/
def SlotRef.addr (s : SlotRef) (offset : Nat) : Nat :=
  BlockRef.index s.block * 65536 + s.slot.val * 512 + offset % 512

/-- Slot 0 of a block: its header (R3), or the volume record (R2). -/
def headerOf (b : BlockRef) : SlotRef := { block := b, slot := 0 }

/-- The volume block A0 (R2). -/
def volumeBlock : BlockRef := 0

/-- Halfword of the header that holds the logical page of a data slot's owner entry (spec 10, 11.3). -/
def entryPageHalf (s : SlotRef) : Fin 256 := Fin.ofNat 256 (2 * s.slot.val)

/-- Halfword of the header that holds the entry state and version of a data slot's owner entry. -/
def entryStateHalf (s : SlotRef) : Fin 256 := Fin.ofNat 256 (2 * s.slot.val + 1)

/-- Data blocks of a bank under a strap, in ascending index (R2). -/
def dataBlocks (strap : Strap) (bank : BankId) : List BlockRef :=
  match strap, bank with
  | _, .a => (List.range 63).map fun i => Fin.ofNat 128 (i + 1)
  | .one, .b => []
  | .two, .b => (List.range 64).map fun i => Fin.ofNat 128 (i + 64)

/-- Number of data blocks under a strap (R1). -/
def dataBlockCount : Strap → Nat
  | .one => 63
  | .two => 127

/-- Number of banks a strap selects (R2). -/
def strapBanks : Strap → Nat
  | .one => 1
  | .two => 2

/-- Whether a bank is fitted under a strap (R2). -/
def strapPresent : Strap → BankId → Bool
  | _, .a => true
  | .one, .b => false
  | .two, .b => true

/-- Largest L under a strap (R1). -/
def strapMaxPages : Strap → Nat
  | .one => Config.maxPagesOne
  | .two => Config.maxPagesTwo

/-- L lies in the range for the strap (R136, R144). -/
def strapAdmits (s : Strap) (pages : Nat) : Bool := Config.minPages ≤ pages && pages ≤ strapMaxPages s

/-! ## Owner entries (R11, spec 10 11.3) -/

/-- Entry state codes (R11). -/
def codeErased : BitVec 4 := 0xF#4
def codeClaimed : BitVec 4 := 0x7#4
def codeValid : BitVec 4 := 0x3#4
def codeStale : BitVec 4 := 0x0#4

/-- The halfword of an owner entry with this state code and version. -/
def entryWord (code : BitVec 4) (v : Version) : HalfWord := code ++ v

/-- Four bytes of an owner entry, read: logical page, state code, version. -/
structure OwnerEntry where
  page : Nat
  code : BitVec 4
  version : Version
  deriving DecidableEq, Repr

/-- Byte `i` of returned data; a byte that is not there reads FFh. -/
def byteAt (bytes : List Byte) (i : Nat) : Byte := bytes.getD i 0xFF#8

/-- Halfword at byte offset `i` of returned data, low byte first. -/
def halfAt (bytes : List Byte) (i : Nat) : HalfWord := halfOf (byteAt bytes i) (byteAt bytes (i + 1))

/-- The owner entry at byte offset `i` of returned data. -/
def entryAt (bytes : List Byte) (i : Nat) : OwnerEntry :=
  { page := (halfAt bytes i).toNat
    code := ((halfAt bytes (i + 2)) >>> 12).setWidth 4
    version := (halfAt bytes (i + 2)).setWidth 12 }

/-- A blank entry: ERASED and naming no page (R13). -/
def OwnerEntry.isBlank (e : OwnerEntry) : Bool := e.code == codeErased && e.page == 0xFFFF

/-! ## Block descriptors (R9, R10, R181, spec 10 11.2) -/

/-- What a block state code means at a mount or at FORMAT step 1 (R9, R137). -/
def scanClass (code : Byte) : ScanClass :=
  if code = 0x7F#8 then .fresh
  else if code = 0x3F#8 then .inUse
  else if code = 0x00#8 then .retired
  else .unknown

/-- Erase count in four descriptor bytes (spec 10, 11.2). -/
def countAt (bytes : List Byte) : Nat :=
  (byteAt bytes 1).toNat + 256 * (byteAt bytes 2).toNat + 65536 * (byteAt bytes 3).toNat

/-- Descriptor halfword 0: state code and the count's low byte. -/
def descWord0 (code countLow : Byte) : HalfWord := halfOf code countLow

/-- Descriptor halfword 1: count bits 23 to 8. -/
def descWord1 (count : Nat) : HalfWord := BitVec.ofNat 16 (count / 256)

/-- The halfword programs of FRESH and IN USE, and RETIRED's array read: how a descriptor program starts (R181). -/
def DescProgram.start : DescProgram → DescStep
  | .fresh n => .write 1 (descWord1 n) [(0, descWord0 0x7F#8 (byteOf n))]
  | .inUse low => .write 0 (descWord0 0x3F#8 low) []
  | .retired _ => .read

/-- RETIRED's halfword programs once its four descriptor bytes have been read (R181). -/
def retiredStep (count : Nat) (bytes : List Byte) : DescStep :=
  if byteAt bytes 1 = 0xFF#8 ∧ byteAt bytes 2 = 0xFF#8 ∧ byteAt bytes 3 = 0xFF#8 then
    .write 1 (descWord1 count) [(0, descWord0 0x00#8 (byteOf count))]
  else .write 0 (descWord0 0x00#8 (byteAt bytes 1)) []

/-- Erase count one greater, saturating (R9). -/
def nextCount (c : Nat) : Nat := min (c + 1) Config.maxEraseCount

/-! ## Volume record (R136, R147, spec 10 11.4) -/

/-- The fields of slot 0 of A0, read. -/
structure VolumeRecord where
  mark : HalfWord
  revision : Byte
  banks : Byte
  pages : Nat
  serial : BitVec 16
  deriving DecidableEq, Repr

/-- The volume record in returned bytes. -/
def volumeAt (bytes : List Byte) : VolumeRecord :=
  { mark := halfAt bytes 0, revision := byteAt bytes 2, banks := byteAt bytes 3,
    pages := (halfAt bytes 4).toNat, serial := halfAt bytes 6 }

/-- Readable: format mark 4C57h and record revision 1 (R136). -/
def VolumeRecord.readable (r : VolumeRecord) : Bool := r.mark == Config.formatMark && r.revision == 1#8

/-- Valid under a strap (R136). -/
def VolumeRecord.valid (r : VolumeRecord) (strap : Strap) : Bool :=
  r.readable && r.banks.toNat == strapBanks strap && strapAdmits strap r.pages

/-- Valid under the strap of its own bank count: some mount takes the record (R136). -/
def VolumeRecord.mountable (r : VolumeRecord) : Bool := r.valid .one || r.valid .two

/-- What an erase of A0 that did not complete with pass may leave of its record: the previous volume, or no valid record
(R149, R150). -/
def VolumeRecord.mayBecome (old new : VolumeRecord) : Bool :=
  !new.mountable || (old.mountable && new.banks == old.banks && new.pages == old.pages)

/-- Halfwords of the record a format writes (R147): number of the halfword and its value. -/
def volumeHalf (strap : Strap) (pages : Nat) (serial : BitVec 16) (half : Fin 256) : HalfWord :=
  if half = 1 then halfOf 1#8 (byteOf (strapBanks strap))
  else if half = 2 then BitVec.ofNat 16 pages
  else if half = 3 then serial
  else Config.formatMark

/-- The serial of the next record: one greater, wrapping, or 1 when none is held (R147). -/
def nextSerial : Option (BitVec 16) → BitVec 16
  | some n => n + 1#16
  | none => 1#16

/-! ## The codes a mount reads, and programs cut short (R9, R11, R136) -/

/-- What code a halfword holds that a mount reads. -/
inductive CodeField where
  /-- none: page data, a logical page, a count, another field of the volume record -/
  | plain
  /-- the block state code of a descriptor (R9) -/
  | descriptor
  /-- the entry state of an owner entry (R11) -/
  | entry
  /-- the format mark of the volume record (R136) -/
  | formatMark
  deriving DecidableEq, Repr

/-- The code that a halfword of a slot holds (R2, R3; spec 10, 11.2 to 11.4). -/
def codeFieldOf (slot : SlotRef) (h : Fin 256) : CodeField :=
  if slot.slot ≠ 0 then .plain
  else if slot.block = volumeBlock then if h = 0 then .formatMark else .plain
  else if h = 0 then .descriptor
  else if h.val % 2 = 1 ∧ h ≠ 1 then .entry
  else .plain

/-- The bits of the code in its halfword. -/
def CodeField.mask : CodeField → HalfWord
  | .plain => 0x0000#16
  | .descriptor => 0x00FF#16
  | .entry => 0xF000#16
  | .formatMark => 0xFFFF#16

/-- The codes that are not damaged, in place (R9, R11); of the format mark, the one a readable record has (R136). -/
def CodeField.names : CodeField → List HalfWord
  | .plain => []
  | .descriptor => [0x00FF#16, 0x007F#16, 0x003F#16, 0x0000#16]
  | .entry => [0xF000#16, 0x7000#16, 0x3000#16, 0x0000#16]
  | .formatMark => [Config.formatMark]

/-- The code of a halfword, in place. -/
def CodeField.of (f : CodeField) (x : HalfWord) : HalfWord := x &&& f.mask

/-- The code of the halfword is damaged (R9, R11). -/
def CodeField.damaged (f : CodeField) (x : HalfWord) : Bool := !f.names.contains (f.of x)

/-- Beside a damaged code, the codes that a program cut short may leave. -/
structure CutCodes where
  /-- the code that was there -/
  old : Bool
  /-- the code intended -/
  intended : Bool
  deriving DecidableEq, Repr

/-- What the rules let a program cut short leave, by the code it was writing; `timedOut` for one that its timeout
ended (R109), else a reset of the part ended it (log 8). RETIRED: either (R88, R92). FRESH: either (R88, R181), but
after a reset not FRESH where the block manager asked for it (R87; DESIGN CHOICE, log 34). IN USE: not IN USE (R22,
R92). Claim: not CLAIMED after a reset (R71). VALID: not VALID (R71). STALE: either, but a repair cut by a reset is
damaged or STALE (R140). Format mark: not the mark (R147). -/
def CodeField.cut (f : CodeField) (c : ReqClass) (timedOut : Bool) (v : HalfWord) : CutCodes :=
  match f with
  | .plain => { old := true, intended := true }
  | .descriptor =>
    { old := true, intended := f.of v != 0x003F#16 && (f.of v != 0x007F#16 || timedOut || c == .volume) }
  | .entry =>
    if f.of v = 0x0000#16 then { old := timedOut || c != .volume, intended := true }
    else { old := true, intended := timedOut && f.of v == 0x7000#16 }
  | .formatMark => { old := true, intended := false }

/-- The halfword that a program cut short leaves, for a free value `free`: bits are only cleared, outside the code only
bits to be cleared, and the code is damaged or one of those allowed (R16, R109; log 8). -/
def cutHalf (f : CodeField) (k : CutCodes) (old v free : HalfWord) : HalfWord :=
  let x := old &&& (free ||| (v &&& ~~~f.mask))
  if f.damaged x || (k.old && f.of x == f.of old) || (k.intended && f.of x == f.of v) then x
  else (x &&& ~~~f.mask) ||| f.of (if k.old then old else v)

/-! ## Versions (R7, R8) -/

/-- Version `a` is newer than version `b` (R7). -/
def newer (a b : Version) : Bool := 1 ≤ (a - b).toNat && (a - b).toNat ≤ 2047

/-- The version a page carries after its next relocation or move (R8). -/
def nextVersion : Option MapEntry → Version
  | some e => e.version + 1#12
  | none => 0#12

/-! ## Host cycles (R1, R115) -/

/-- Logical page of a halfword address. -/
def pageOf (addr : BitVec 22) : Nat := addr.toNat / 256

/-- Even page offset of a halfword address. -/
def offsetOf (addr : BitVec 22) : Nat := 2 * (addr.toNat % 256)

/-! ## Management frames (spec 10, 11.6; R163) -/

/-- Bits of a byte, most significant first. -/
def bitsOf (b : Byte) : List Bool := (List.range 8).map fun i => b.getLsbD (7 - i)

/-- The byte whose bits are these, most significant first. -/
def byteOfBits (bits : List Bool) : Byte := bits.foldl (fun acc b => (acc <<< 1) ||| (if b then 1#8 else 0#8)) 0#8

/-- Two bytes, most significant first, as a number. -/
def wordBE (high low : Byte) : BitVec 16 := high ++ low

/-- Argument bytes of a command, by its code (R164). -/
def argCount (code : Byte) : Nat :=
  match code.toNat with
  | 4 => 2
  | 5 => 2
  | 6 => 1
  | 7 => 3
  | 10 => 2
  | 12 => 2
  | 13 => 2
  | 14 => 1
  | _ => 0

/-- A 16-bit argument as two bytes (spec 10, 11.6). -/
def argWord (w : BitVec 16) : List Byte := [(w >>> 8).setWidth 8, w.setWidth 8]

end Sys2Proof.Machine
end

