-- ==== Sys2Proof/Machine/Ops.lean ====
section
/-! DEFINITION. The named operations over memory and registers: sorted association lists (flash cells, staged bytes,
the page map), the flash array, the block table, and the access to each bank. -/

namespace Sys2Proof.Machine

/-! ## Association lists with rising keys -/

/-- The value at a key. -/
def assocGet {α : Type} : List (Nat × α) → Nat → Option α
  | [], _ => none
  | (k, v) :: t, a => if a = k then some v else assocGet t a

/-- Put a value at a key, keeping the keys rising. -/
def assocSet {α : Type} : List (Nat × α) → Nat → α → List (Nat × α)
  | [], a, x => [(a, x)]
  | (k, v) :: t, a, x =>
    if a < k then (a, x) :: (k, v) :: t
    else if a = k then (a, x) :: t
    else (k, v) :: assocSet t a x

/-- Remove a key. -/
def assocDrop {α : Type} (l : List (Nat × α)) (a : Nat) : List (Nat × α) := l.filter fun p => p.1 != a

/-- The keys rise strictly. -/
def assocRising {α : Type} : List (Nat × α) → Bool
  | [] => true
  | [_] => true
  | (k, _) :: (k', v') :: t => decide (k < k') && assocRising ((k', v') :: t)

/-- Sort a list by a key, equal keys in their given order (insertion sort). -/
def insertByKey {α : Type} (key : α → Nat) (x : α) : List α → List α
  | [] => [x]
  | y :: t => if key x < key y then x :: y :: t else y :: insertByKey key x t

/-- A list in ascending order of a key. -/
def sortByKey {α : Type} (key : α → Nat) (l : List α) : List α :=
  l.foldl (fun acc x => insertByKey key x acc) []

/-! ## The flash array of a bank -/

/-- What an unlisted address reads as: FFh, an erased cell (R100); in a block whose last erase did not complete with
pass, a free value, but for the descriptor's state code, which is BLANK or damaged (R92, R113; log 9). -/
def Flash.unlisted (f : Flash) (a : Nat) : Byte :=
  match assocGet f.spoiled (a / Config.blockBytes) with
  | none => 0xFF#8
  | some n =>
    let c := Config.spoiledByte n a
    if a % Config.blockBytes = 0 ∧ (c = 0x7F#8 ∨ c = 0x3F#8 ∨ c = 0x00#8) then 0xFF#8 else c

/-- The byte of the array at an address. -/
def Flash.byte (f : Flash) (a : Nat) : Byte := (assocGet f.cells a).getD (f.unlisted a)

/-- Set the byte of the array at an address, keeping the canonical form. -/
def Flash.write (f : Flash) (a : Nat) (v : Byte) : Flash :=
  { f with cells := if v = f.unlisted a then assocDrop f.cells a else assocSet f.cells a v }

/-- The halfword of a slot (spec 10, 11.1). -/
def Flash.half (f : Flash) (s : SlotRef) (h : Fin 256) : HalfWord :=
  halfOf (f.byte (s.addr (2 * h.val))) (f.byte (s.addr (2 * h.val + 1)))

/-- Set a halfword of a slot. -/
def Flash.writeHalf (f : Flash) (s : SlotRef) (h : Fin 256) (v : HalfWord) : Flash :=
  (f.write (s.addr (2 * h.val)) v.low).write (s.addr (2 * h.val + 1)) v.high

/-- The bytes of a slot from an offset. -/
def Flash.bytes (f : Flash) (s : SlotRef) (offset len : Nat) : List Byte :=
  (List.range len).map fun i => f.byte (s.addr (offset + i))

/-- An erase with pass: every byte of the block reads FFh (R100). -/
def Flash.eraseBlock (f : Flash) (index : Nat) : Flash :=
  { cells := f.cells.filter fun c => c.1 / Config.blockBytes != index, spoiled := assocDrop f.spoiled index }

/-- An erase of a data block that did not complete with pass: the block's bytes are free values from now on (log 9). -/
def Flash.spoilBlock (f : Flash) (index stamp : Nat) : Flash :=
  { cells := f.cells.filter fun c => c.1 / Config.blockBytes != index, spoiled := assocSet f.spoiled index stamp }

/-- The volume record as the array of bank A holds it (R136). -/
def Flash.volume (f : Flash) : VolumeRecord := volumeAt (f.bytes (headerOf volumeBlock) 0 8)

/-- A block part erased: an erase only sets bits, and which of them it has set in each byte is a free value (log 9). -/
def Flash.partErase (f : Flash) (index stamp : Nat) : Flash :=
  { f with cells := f.cells.filterMap fun c =>
      if c.1 / Config.blockBytes = index then
        let v := c.2 ||| Config.spoiledByte stamp c.1
        if v = f.unlisted c.1 then none else some (c.1, v)
      else some c }

/-- An erase of A0 that did not complete with pass: the block is intact, part erased or erased, and its record is the
previous one or not valid (R149, R150; log 9). -/
def Flash.spoilVolume (f : Flash) (stamp : Nat) : Flash :=
  let g := f.partErase (BlockRef.index volumeBlock) stamp
  if f.volume.mayBecome g.volume then g else g.write ((headerOf volumeBlock).addr 0) 0xFF#8

/-- The canonical form of an array: addresses rise strictly and lie in the bank, no cell equals what it would read as
if it were not listed, and the spoiled blocks rise strictly. -/
def Flash.wf (f : Flash) : Bool :=
  assocRising f.cells && f.cells.all (fun c => c.1 < Config.bankBytes && c.2 != f.unlisted c.1) &&
    assocRising f.spoiled

/-! ## Banks of the state -/

/-- The bank controller of a bank. -/
def State.bank (s : State) : BankId → BankCtl
  | .a => s.bankA
  | .b => s.bankB

/-- Replace the bank controller of a bank. -/
def State.setBank (s : State) (bk : BankId) (k : BankCtl) : State :=
  match bk with
  | .a => { s with bankA := k }
  | .b => { s with bankB := k }

/-- The array of a bank. -/
def State.flash (s : State) : BankId → Flash
  | .a => s.flashA
  | .b => s.flashB

/-- Replace the array of a bank. -/
def State.setFlash (s : State) (bk : BankId) (f : Flash) : State :=
  match bk with
  | .a => { s with flashA := f }
  | .b => { s with flashB := f }

/-- The byte of the array of a bank at an address: the model's read of one byte of memory. -/
def State.flashByte (s : State) (bk : BankId) (a : Nat) : Byte := (s.flash bk).byte a

/-! ## Staging entries of the state -/

/-- A staging entry. -/
def State.entry (s : State) (i : Fin 8) : Entry := s.staging.entries[i]

/-- Replace a staging entry. -/
def State.setEntry (s : State) (i : Fin 8) (e : Entry) : State :=
  { s with staging := { s.staging with entries := s.staging.entries.set i e } }

/-- Replace the commit queue's order. -/
def State.setQueue (s : State) (q : List (Fin 8)) : State := { s with staging := { s.staging with queue := q } }

/-- The staging entries' numbers, ascending. -/
def entryNumbers : List (Fin 8) := [0, 1, 2, 3, 4, 5, 6, 7]

/-- The lowest-numbered staging entry with a property. -/
def State.findEntry (s : State) (p : Entry → Bool) : Option (Fin 8) := entryNumbers.find? fun i => p (s.entry i)

/-- How many staging entries have a property. -/
def State.countEntries (s : State) (p : Entry → Bool) : Nat := (entryNumbers.filter fun i => p (s.entry i)).length

/-! ## Block records of the state -/

/-- The record of a block, if one is held. -/
def recordIn (t : List (BlockRef × BlockRecord)) (b : BlockRef) : Option BlockRecord :=
  (t.find? fun p => p.1 == b).map Prod.snd

/-- The record of a block, if one is held (R72). -/
def State.record (s : State) (b : BlockRef) : Option BlockRecord := recordIn s.blocks.records b

/-- Change the record of a block, if one is held. -/
def State.modifyRecord (s : State) (b : BlockRef) (f : BlockRecord → BlockRecord) : State :=
  { s with blocks := { s.blocks with
      records := s.blocks.records.map fun p => if p.1 = b then (p.1, f p.2) else p } }

/-- The block's record is in this state. -/
def State.blockIs (s : State) (b : BlockRef) (st : BlockState) : Bool :=
  match s.record b with
  | some r => r.state == st
  | none => false

/-- The block is held with its condemned mark set. -/
def State.isCondemned (s : State) (b : BlockRef) : Bool :=
  match s.record b with
  | some r => r.condemned
  | none => false

/-! ## Page map of the state -/

/-- The page map entry of a page; none is UNMAPPED (R4). -/
def State.mapped (s : State) (page : Nat) : Option MapEntry := assocGet s.pageMap page

/-- L, or 0 when none is in force (R1, R131). -/
def State.capacity (s : State) : Nat := s.service.pages.getD 0

/-! ## Other updates -/

/-- Replace the service state. -/
def State.setService (s : State) (x : ServiceState) : State := { s with service := { s.service with state := x } }

/-- Replace what the mover is doing. -/
def State.setActivity (s : State) (x : Activity) : State := { s with mover := { s.mover with activity := x } }

/-- Set or clear reserve hold (R52). -/
def State.setReserveHold (s : State) (x : Bool) : State := { s with mover := { s.mover with reserveHold := x } }

/-- Replace the volume engine's work. -/
def State.setEngine (s : State) (x : Engine) : State := { s with engine := x }

/-- Take the index of the next free value. -/
def State.takeFree (s : State) : State := { s with freeNext := s.freeNext + 1 }

end Sys2Proof.Machine
end

