-- ==== Sys2Proof/Machine/Flags.lean ====
section
/-! DEFINITION. The flag word, ALERT, the counters and the parameters of the management port (R173 to R180). -/

namespace Sys2Proof.Machine

/-- The fourteen flags (R176). -/
inductive Flag where
  | mountDone
  | unformatted
  | mountRepaired
  | formatDone
  | formatFailed
  | flushDone
  | commitFailed
  | blockRetired
  | readOnly
  | holdTimeout
  | rangeFault
  | drainDone
  | frameError
  | writeRefused
  deriving DecidableEq, Repr

/-- A flag's bit (R176). -/
def Flag.bit : Flag → Nat
  | .mountDone => 0
  | .unformatted => 1
  | .mountRepaired => 2
  | .formatDone => 3
  | .formatFailed => 4
  | .flushDone => 5
  | .commitFailed => 6
  | .blockRetired => 7
  | .readOnly => 8
  | .holdTimeout => 9
  | .rangeFault => 10
  | .drainDone => 11
  | .frameError => 12
  | .writeRefused => 13

/-- The word with a flag's bit set. -/
def Flag.mask (f : Flag) : BitVec 16 := BitVec.ofNat 16 (2 ^ f.bit)

/-- Set a flag (R176). -/
def State.setFlag (s : State) (f : Flag) : State := { s with mgmt := { s.mgmt with flags := s.mgmt.flags ||| f.mask } }

/-- A flag is set. -/
def State.hasFlag (s : State) (f : Flag) : Bool := s.mgmt.flags.getLsbD f.bit

/-- The bits of the flag word that hold a flag: 0 to 13 (R176). -/
def flagBits : BitVec 16 := 0x3FFF#16

/-- ALERT is asserted while a flag is set whose mask bit is set; bits 14 and 15 of the mask correspond to no flag
(R178). -/
def State.alert (s : State) : Bool := (s.mgmt.flags &&& s.mgmt.alertMask &&& flagBits) != 0#16

/-- The ten counters (R179). -/
inductive Counter where
  | hostWrites
  | hostReads
  | silentCommits
  | inPlaceCommits
  | relocations
  | reclaimMoves
  | erases
  | eraseSuspends
  | holdTimeouts
  | programFailures
  deriving DecidableEq, Repr

/-- A counter's id (R179). -/
def Counter.id : Counter → Fin 10
  | .hostWrites => 0
  | .hostReads => 1
  | .silentCommits => 2
  | .inPlaceCommits => 3
  | .relocations => 4
  | .reclaimMoves => 5
  | .erases => 6
  | .eraseSuspends => 7
  | .holdTimeouts => 8
  | .programFailures => 9

/-- One more, saturating at 4294967295 (R179). -/
def saturatingSucc (c : BitVec 32) : BitVec 32 := if c = 0xFFFFFFFF#32 then c else c + 1#32

/-- Increment a counter (R179). -/
def State.bump (s : State) (c : Counter) : State :=
  { s with mgmt := { s.mgmt with counters := s.mgmt.counters.set c.id (saturatingSucc s.mgmt.counters[c.id]) } }

/-- The value of a counter. -/
def State.counter (s : State) (c : Counter) : BitVec 32 := s.mgmt.counters[c.id]

/-- A counter's increment when a condition holds. -/
def State.bumpIf (s : State) (b : Bool) (c : Counter) : State := if b then s.bump c else s

/-- The value of the parameter with an id; none for an id that names no parameter (R174). -/
def Params.get (p : Params) (id : Nat) : Option Nat :=
  match id with
  | 1 => some p.commitDelay
  | 2 => some p.ageLimit
  | 3 => some p.holdLimit
  | 4 => some p.inPlacePolicy
  | 5 => some p.reclaimThreshold
  | 6 => some p.wearLimit
  | 7 => some p.eraseQuantum
  | 8 => some p.suspendLimit
  | 9 => some p.programTimeout
  | 10 => some p.eraseTimeout
  | _ => none

/-- The range of the parameter with an id (R173). -/
def paramRange (id : Nat) : Option (Nat × Nat) :=
  match id with
  | 1 => some (0, 65535)
  | 2 => some (1, 1000)
  | 3 => some (1, 65535)
  | 4 => some (0, 1)
  | 5 => some (3, 8)
  | 6 => some (16, 65535)
  | 7 => some (100, 65535)
  | 8 => some (0, 255)
  | 9 => some (10, 2000)
  | 10 => some (100, 10000)
  | _ => none

/-- A value is admitted for a parameter id (R174). -/
def paramAdmits (id v : Nat) : Bool :=
  match paramRange id with
  | some (lo, hi) => lo ≤ v && v ≤ hi
  | none => false

/-- Set the parameter with an id. -/
def Params.put (p : Params) (id v : Nat) : Params :=
  match id with
  | 1 => { p with commitDelay := v }
  | 2 => { p with ageLimit := v }
  | 3 => { p with holdLimit := v }
  | 4 => { p with inPlacePolicy := v }
  | 5 => { p with reclaimThreshold := v }
  | 6 => { p with wearLimit := v }
  | 7 => { p with eraseQuantum := v }
  | 8 => { p with suspendLimit := v }
  | 9 => { p with programTimeout := v }
  | 10 => { p with eraseTimeout := v }
  | _ => p

/-- Every parameter lies within its range (R173). -/
def Params.inRange (p : Params) : Bool :=
  (List.range 10).all fun i =>
    match p.get (i + 1) with
    | some v => paramAdmits (i + 1) v
    | none => false

/-! ## The read-only latch (R132) -/

/-- The causes of the latch (R132). -/
inductive Cause where
  | capacity
  | commitStuck
  | reclaimHalted
  deriving DecidableEq, Repr

/-- A cause is present. -/
def Latch.has (l : Latch) : Cause → Bool
  | .capacity => l.capacity
  | .commitStuck => l.commitStuck
  | .reclaimHalted => l.reclaimHalted

/-- The latch with a cause present. -/
def Latch.add (l : Latch) : Cause → Latch
  | .capacity => { l with capacity := true }
  | .commitStuck => { l with commitStuck := true }
  | .reclaimHalted => { l with reclaimHalted := true }

/-- The latch is set (R132). -/
def Latch.isSet (l : Latch) : Bool := l.capacity || l.commitStuck || l.reclaimHalted

end Sys2Proof.Machine
end

