-- ==== Sys2Proof/Machine/Banks.lean ====
section
/-! DEFINITION. The bank controllers (spec 05): request slots, the choice among them, the begin of each operation,
suspend and resume, the bank reset, and what an interrupted operation leaves in the array. A request is only put into
its slot by `handOver`; the bank's choice is made by `kickBank`, which each event calls when it has handed over all
that belongs to it (log 15). -/

namespace Sys2Proof.Machine

/-! ## Request slots (R97) -/

/-- The request in the slot of a class; the host read slot holds its own kind of request. -/
def BankCtl.slot (k : BankCtl) : ReqClass → Option Request
  | .host => none
  | .mover => k.mover
  | .descriptor => k.descriptor
  | .volume => k.volume

/-- Replace the request in the slot of a class. -/
def BankCtl.setSlot (k : BankCtl) (c : ReqClass) (r : Option Request) : BankCtl :=
  match c with
  | .host => k
  | .mover => { k with mover := r }
  | .descriptor => { k with descriptor := r }
  | .volume => { k with volume := r }

/-- Hand a request over to its slot (R97, R98). -/
def handOver (bk : BankId) (c : ReqClass) (op : ReqOp) (s : State) : State :=
  let k := s.bank bk
  s.setBank bk { k.setSlot c (some { op := op, moment := k.handOvers, begun := false }) with
    handOvers := k.handOvers + 1 }

/-- Hand an erase over to the erase slot (R97). -/
def handErase (r : EraseRequest) (s : State) : State :=
  let bk := BlockRef.bank r.block
  s.setBank bk { s.bank bk with erase := some r }

/-- The request's next action is an array read (R181: RETIRED begins with one). -/
def ReqOp.isRead : ReqOp → Bool
  | .readSlot _ => true
  | .readEntry _ => true
  | .readDescriptor _ => true
  | .program _ _ _ => false
  | .mark _ _ => false
  | .descriptor _ _ .read => true
  | .descriptor _ _ (.write _ _ _) => false

/-- The request is a program, of one halfword or of a sequence (R152, R181). -/
def ReqOp.isProgram : ReqOp → Bool
  | .readSlot _ => false
  | .readEntry _ => false
  | .readDescriptor _ => false
  | .program _ _ _ => true
  | .mark _ _ => true
  | .descriptor _ _ _ => true

/-- The next action of a request. A program of the entry state field alone carries the version the entry holds
(R12; log 18). -/
def ReqOp.action (f : Flash) : ReqOp → Action
  | .readSlot s => .read s 0 Config.pageBytes
  | .readEntry s => .read (headerOf s.block) (4 * s.slot.val) 4
  | .readDescriptor b => .read (headerOf b) 0 4
  | .program s h v => .program s h v
  | .mark s code =>
    .program (headerOf s.block) (entryStateHalf s)
      (entryWord code ((f.half (headerOf s.block) (entryStateHalf s)).setWidth 12))
  | .descriptor b _ .read => .read (headerOf b) 0 4
  | .descriptor b _ (.write h v _) => .program (headerOf b) h v

/-- Of two classes with their moments, the one handed over first. -/
def earlier (acc : Option (ReqClass × Nat)) (c : ReqClass × Nat) : Option (ReqClass × Nat) :=
  match acc with
  | none => some c
  | some a => if c.2 < a.2 then some c else some a

/-- The class of the oldest waiting request among the mover, descriptor and volume slots that satisfies `p` (R98). -/
def BankCtl.oldest (k : BankCtl) (p : ReqClass → ReqOp → Bool) : Option ReqClass :=
  let cands := [ReqClass.mover, .descriptor, .volume].filterMap fun c =>
    match k.slot c with
    | some r => if p c r.op then some (c, r.moment) else none
    | none => none
  (cands.foldl earlier none).map Prod.fst

/-- A read waits, of the classes that may suspend an erase (R103). -/
def BankCtl.readWaits (k : BankCtl) : Bool :=
  k.hostRead.isSome || (k.oldest fun c op => op.isRead && c != .descriptor).isSome

/-! ## Terms used by drain control and the format (R95, R152) -/

/-- An erase is in progress on the bank. -/
def BankCtl.eraseInProgress (k : BankCtl) : Bool :=
  k.state == .erase || k.state == .suspending || k.state == .suspended

/-- An erase is running on the bank. -/
def BankCtl.eraseRunning (k : BankCtl) : Bool := k.state == .erase || k.state == .suspending

/-- The action is a program or its verify read. -/
def Action.isProgram : Action → Bool
  | .read _ _ _ => false
  | .program _ _ _ => true
  | .verify _ _ _ => true

/-- A program, with its verify read, is being carried out. -/
def BankCtl.programInProgress (k : BankCtl) : Bool :=
  match k.active with
  | some a => a.act.isProgram
  | none => false

/-- A program request is in a slot of the bank. -/
def BankCtl.programHeld (k : BankCtl) : Bool := (k.oldest fun _ op => op.isProgram).isSome

/-- The bank is at rest (R152). -/
def BankCtl.atRest (k : BankCtl) : Bool := !k.programInProgress && !k.programHeld && !k.eraseRunning

/-- Every fitted bank satisfies `p`. -/
def State.allBanks (s : State) (p : BankCtl → Bool) : Bool :=
  p s.bankA && (!strapPresent s.service.strap .b || p s.bankB)

/-- Banks at rest (R152). -/
def State.banksAtRest (s : State) : Bool := s.allBanks BankCtl.atRest

/-! ## Beginning operations -/

/-- The request of a class has been begun (R149). -/
def BankCtl.markBegun (k : BankCtl) (c : ReqClass) : BankCtl :=
  k.setSlot c ((k.slot c).map fun r => { r with begun := true })

/-- Carry out an action for a class: READ or PROGRAM from IDLE, and no change of bank state in SUSPENDED; a program
starts the program timer (R95, R100, R101, R111). -/
def beginAction (bk : BankId) (c : ReqClass) (act : Action) (s : State) : State :=
  let k := s.bank bk
  s.setBank bk { k.markBegun c with
    active := some { cls := c, act := act }
    state := if k.state = .suspended then .suspended else if act.isProgram then .program else .read
    programTimer := if act.isProgram then some s.mgmt.params.programTimeout else k.programTimer }

/-- Carry out the host read in the host read slot (R98). -/
def beginHostRead (bk : BankId) (h : HostRead) (s : State) : State :=
  beginAction bk .host (.read h.slot h.offset 2) s

/-- Carry out the next action of the request of a class. -/
def beginClass (bk : BankId) (c : ReqClass) (s : State) : State :=
  match (s.bank bk).slot c with
  | some r => beginAction bk c (r.op.action (s.flash bk)) s
  | none => s

/-- Begin an erase (R102). -/
def beginErase (bk : BankId) (r : EraseRequest) (s : State) : State :=
  let p := s.mgmt.params
  s.setBank bk { s.bank bk with
    erase := none
    state := .erase
    context := some { block := r.block, requester := r.requester, runningTime := 0, eraseTimeout := p.eraseTimeout,
                      quantum := p.eraseQuantum, suspendLimit := p.suspendLimit, suspendCount := 0,
                      quantumTimer := some p.eraseQuantum, cause := .none, powerHold := false } }

/-- Request a suspend (R103, R111). -/
def requestSuspend (bk : BankId) (cause : SuspendCause) (hold : Bool) (s : State) : State :=
  let k := s.bank bk
  s.setBank bk { k with
    state := .suspending
    context := k.context.map fun c => { c with cause := cause, powerHold := hold }
    suspendTimer := some s.mgmt.params.programTimeout }

/-- Issue a resume (R106). -/
def resumeErase (bk : BankId) (s : State) : State :=
  let k := s.bank bk
  s.setBank bk { k with
    state := .erase
    context := k.context.map fun c => { c with cause := .none, quantumTimer := some c.quantum } }

/-- Begin a bank reset (R110). -/
def beginBankReset (bk : BankId) (s : State) : State :=
  s.setBank bk { s.bank bk with
    state := .resetting, active := none, programTimer := none, suspendTimer := none,
    resetTimer := some s.mgmt.params.programTimeout }

/-- The choice of an IDLE bank: host read, then the oldest mover, descriptor or volume request, then the erase if
PFAIL and restart-pending allow (R98). -/
def chooseIdle (bk : BankId) (s : State) : State :=
  let k := s.bank bk
  match k.hostRead with
  | some h => beginHostRead bk h s
  | none =>
    match k.oldest fun _ _ => true with
    | some c => beginClass bk c s
    | none =>
      match k.erase with
      | some r => if s.pins.pfail || s.drain.restartPending then s else beginErase bk r s
      | none => s

/-- The choice of a SUSPENDED bank: waiting reads, under power hold waiting programs too, and the resume when nothing
waits and power hold is clear (R98, R106, R111). -/
def chooseSuspended (bk : BankId) (hold : Bool) (s : State) : State :=
  let k := s.bank bk
  match k.hostRead with
  | some h => beginHostRead bk h s
  | none =>
    match k.oldest fun c op => hold || (op.isRead && c != .descriptor) with
    | some c => beginClass bk c s
    | none => if hold then s else resumeErase bk s

/-- The suspend decision of a bank in ERASE (R103). -/
def decideSuspend (bk : BankId) (c : EraseContext) (s : State) : State :=
  if (s.bank bk).readWaits && c.quantumTimer.isNone && decide (c.suspendCount < c.suspendLimit) then
    requestSuspend bk .read c.powerHold s
  else s

/-- What a bank with no action in progress does next: its choice in IDLE (R98), in SUSPENDED (R98, R106), and its
suspend decision in ERASE (R103). -/
def kickBank (bk : BankId) (s : State) : State :=
  let k := s.bank bk
  match k.active with
  | some _ => s
  | none =>
    match k.state with
    | .idle => chooseIdle bk s
    | .suspended =>
      match k.context with
      | some c => chooseSuspended bk c.powerHold s
      | none => s
    | .erase =>
      match k.context with
      | some c => decideSuspend bk c s
      | none => s
    | .read => s
    | .program => s
    | .suspending => s
    | .resetting => s

/-- Both banks do what comes next. -/
def kickBanks (s : State) : State := kickBank .b (kickBank .a s)

/-! ## Ends and interruptions -/

/-- The bank has no action in progress: IDLE, or still SUSPENDED (R100, R101). -/
def endAction (bk : BankId) (s : State) : State :=
  let k := s.bank bk
  s.setBank bk { k with
    active := none, programTimer := none, state := if k.state = .suspended then .suspended else .idle }

/-- What an erase leaves in the array: an erased block on pass; otherwise a spoiled data block, or an A0 that is intact,
part erased or erased (R100, R150; log 9). -/
def eraseArray (block : BlockRef) (pass : Bool) (s : State) : State :=
  let bk := BlockRef.bank block
  if pass then s.setFlash bk ((s.flash bk).eraseBlock (BlockRef.index block))
  else if block = volumeBlock then (s.setFlash .a (s.flashA.spoilVolume s.freeNext)).takeFree
  else (s.setFlash bk ((s.flash bk).spoilBlock (BlockRef.index block) s.freeNext)).takeFree

/-- The halfword of a program of a class that was cut short, by its timeout or by a reset (R16, R109; log 8). -/
def halfDone (bk : BankId) (c : ReqClass) (timedOut : Bool) (slot : SlotRef) (h : Fin 256) (v : HalfWord) (s : State) :
    State :=
  let f := codeFieldOf slot h
  let left := cutHalf f (f.cut c timedOut v) ((s.flash bk).half slot h) v (Config.halfDoneBits s.freeNext)
  (s.setFlash bk ((s.flash bk).writeHalf slot h left)).takeFree

/-- A reset of the part before a program has passed leaves the halfword part programmed (R22, R71, R87, R113, R140,
R150, R181). -/
def interruptProgram (bk : BankId) (s : State) : State :=
  match (s.bank bk).active with
  | some { cls := c, act := .program slot h v } => halfDone bk c false slot h v s
  | some { cls := c, act := .verify slot h v } => halfDone bk c false slot h v s
  | some { cls := _, act := .read _ _ _ } => s
  | none => s

/-- A reset of the part during an erase cuts it short: the mount's bank reset ends it (R92, R113). -/
def interruptErase (bk : BankId) (s : State) : State :=
  match (s.bank bk).context with
  | some c => eraseArray c.block false s
  | none => s

/-- What a reset of the part does to what the flash was carrying out on a bank (R113). -/
def interruptBank (bk : BankId) (s : State) : State := interruptErase bk (interruptProgram bk s)

/-- What a reset of the part does to what both flash banks were carrying out (R113). -/
def interruptFlash (s : State) : State := interruptBank .b (interruptBank .a s)

/-- End the erase in progress with a result: its context is cleared and its effect on the array is made; the report
to the requester is the caller's (R102, R108, R109). -/
def endErase (bk : BankId) (pass : Bool) (s : State) : State :=
  match (s.bank bk).context with
  | some c => (eraseArray c.block pass s).setBank bk { s.bank bk with context := none, suspendTimer := none }
  | none => s

/-! ## Host reads (R99, R122) -/

/-- Hand a host read to its bank's host read slot (R122). -/
def handHostRead (slot : SlotRef) (offset : Nat) (s : State) : State :=
  let bk := slot.bank
  s.setBank bk { s.bank bk with hostRead := some { slot := slot, offset := offset, withdrawn := false } }

/-- The bank is carrying out the read of its host read slot. -/
def BankCtl.servingHost (k : BankCtl) : Bool :=
  match k.active with
  | some a => a.cls == .host
  | none => false

/-- Withdraw the host read of a bank: dropped if not begun, its data discarded at return if in progress (R99). -/
def withdrawHostRead (bk : BankId) (s : State) : State :=
  let k := s.bank bk
  s.setBank bk { k with
    hostRead := if k.servingHost then k.hostRead.map fun h => { h with withdrawn := true } else none }

end Sys2Proof.Machine
end

