-- ==== Sys2Proof/Machine/Staging.lean ====
section
/-! DEFINITION. The end of a host cycle (R116, R126), the staging buffer (spec 02) and the read-only latch's effect
when a cause is handed (R133). -/

namespace Sys2Proof.Machine

/-! ## Completing a cycle -/

/-- Complete the current cycle: DONE, hold timer stopped, outcome recorded (R116). -/
def completeCycle (fault : Bool) (data : Option HalfWord) (s : State) : State :=
  match s.port.cycle with
  | some c =>
    { s with port := { state := .done, holdTimer := none,
                       cycle := some { c with wait := .none, outcome := some { fault := fault, data := data } } } }
  | none => s

/-- Set what the current cycle waits for (R114). -/
def setWait (w : Wait) (s : State) : State :=
  { s with port := { s.port with cycle := s.port.cycle.map fun c => { c with wait := w } } }

/-- The HOLDING cycle with this wait, if there is one. -/
def State.waiting (s : State) (w : Wait) : Option Cycle :=
  match s.port.state, s.port.cycle with
  | .holding, some c => if c.wait = w then some c else none
  | _, _ => none

/-- Refuse a write: FAULT and WRITE REFUSED (R117, R31). -/
def refuseWrite (s : State) : State := (completeCycle true none s).setFlag .writeRefused

/-- Refuse the held write, if there is one (R31, R133). -/
def refuseHeld (s : State) : State :=
  match s.waiting .staging with
  | some _ => refuseWrite s
  | none => s

/-! ## Entries and their order -/

/-- Entry `a` opened before entry `b` (R24). -/
def openedBefore (a b : Entry) : Bool :=
  1 ≤ (b.openSeq - a.openSeq).toNat && (b.openSeq - a.openSeq).toNat ≤ 2147483647

/-- The GATHERING entry for a page (R26). -/
def State.gatheringFor (s : State) (page : Nat) : Option (Fin 8) :=
  s.findEntry fun e => e.state == .gathering && e.page == some page

/-- The lowest-numbered EMPTY entry (R24). -/
def State.emptyEntry (s : State) : Option (Fin 8) := s.findEntry fun e => e.state == .empty

/-- Put an entry number before the first one it opened before. -/
def insertOpened (s : State) (i : Fin 8) : List (Fin 8) → List (Fin 8)
  | [] => [i]
  | j :: t => if openedBefore (s.entry i) (s.entry j) then i :: j :: t else j :: insertOpened s i t

/-- The GATHERING entries in ascending order of opening (R24, R35). -/
def State.gatheringInOrder (s : State) : List (Fin 8) :=
  (entryNumbers.filter fun i => (s.entry i).state == .gathering).foldl (fun acc i => insertOpened s i acc) []

/-- Close a GATHERING entry; any other entry is not affected (R35). -/
def closeEntry (i : Fin 8) (s : State) : State :=
  let e := s.entry i
  if e.state = .gathering then
    (s.setEntry i { e with state := .closed, idle := none, age := none }).setQueue (s.staging.queue ++ [i])
  else s

/-- Close every GATHERING entry in ascending order of opening (R35, R36, R44). -/
def closeAll (s : State) : State := s.gatheringInOrder.foldl (fun acc i => closeEntry i acc) s

/-! ## Absorbing writes -/

/-- The staged bytes with the enabled bytes of a write stored (R26). -/
def stageBytes (staged : List (Nat × Byte)) (o : Nat) (lower upper : Bool) (data : HalfWord) : List (Nat × Byte) :=
  let st := if lower then assocSet staged o data.low else staged
  if upper then assocSet st (o + 1) data.high else st

/-- Open an EMPTY entry for a page (R27). -/
def openEntry (i : Fin 8) (page : Nat) (s : State) : State :=
  let p := s.mgmt.params
  let s1 := s.setEntry i
    { state := .gathering, page := some page, staged := [], openSeq := s.staging.nextOpen,
      idle := if p.commitDelay = 0 then none else some p.commitDelay, age := some (1000 * p.ageLimit),
      attempts := 0, cohort := false }
  { s1 with staging := { s1.staging with nextOpen := s.staging.nextOpen + 1#32 } }

/-- The entry after a merge: bytes stored, idle timer restarted when the commit delay is not 0 (R26). -/
def mergedEntry (e : Entry) (delay o : Nat) (lower upper : Bool) (data : HalfWord) : Entry :=
  { e with staged := stageBytes e.staged o lower upper data, idle := if delay = 0 then e.idle else some delay }

/-- Merge a write into a GATHERING entry; it is absorbed, and the entry closes if its mask is complete or the commit
delay is 0 (R26, R28, R29). -/
def mergeWrite (i : Fin 8) (o : Nat) (lower upper : Bool) (data : HalfWord) (s : State) : State :=
  let delay := s.mgmt.params.commitDelay
  let e := mergedEntry (s.entry i) delay o lower upper data
  let s1 := completeCycle false none ((s.setEntry i e).bump .hostWrites)
  if e.staged.length = Config.pageBytes ∨ delay = 0 then closeEntry i s1 else s1

/-- Absorb a write of the current cycle, into the page's GATHERING entry or a newly opened one; none when no entry is
available (R25, R26, R27). -/
def absorbWrite (c : Cycle) (s : State) : Option State :=
  let data := c.data.getD 0xFFFF#16
  match s.gatheringFor c.page with
  | some i => some (mergeWrite i c.offset c.lower c.upper data s)
  | none =>
    match s.emptyEntry with
    | some i => some (mergeWrite i c.offset c.lower c.upper data (openEntry i c.page s))
    | none => none

/-- Close the GATHERING entry that opened first, with cause eviction (R30). -/
def evictOldest (s : State) : State :=
  match s.gatheringInOrder with
  | i :: _ => closeEntry i s
  | [] => s

/-- Hand a write with at least one byte enabled to the staging buffer (R25, R30, R120): it is absorbed, or it is held
and the oldest GATHERING entry is evicted. -/
def handWrite (c : Cycle) (s : State) : State :=
  match absorbWrite c s with
  | some s1 => s1
  | none => setWait .staging (evictOldest s)

/-- An entry has become EMPTY: the held write, if any, is handed over again and absorbed (R31). -/
def retryHeld (s : State) : State :=
  match s.waiting .staging with
  | some c => (absorbWrite c s).getD s
  | none => s

/-! ## Commit queue (R37 to R41) -/

/-- An entry is STUCK (R37). -/
def State.hasStuck (s : State) : Bool := (s.findEntry fun e => e.state == .stuck).isSome

/-- A flush is pending: some entry carries a cohort mark (R45). -/
def State.flushPending (s : State) : Bool := (s.findEntry fun e => e.cohort).isSome

/-- An entry's commit is reported "committed": it becomes EMPTY, the FLUSH completion check is made if it was marked,
and the held write ends (R39, R45). -/
def releaseEntry (i : Fin 8) (s : State) : State :=
  let marked := (s.entry i).cohort
  let s1 := s.setEntry i Entry.blank
  retryHeld (if marked && !s1.flushPending then s1.setFlag .flushDone else s1)

/-- The head entry becomes COMMITTING and leaves the queue (R38). -/
def startEntry (i : Fin 8) (s : State) : State :=
  (s.setEntry i { s.entry i with state := .committing }).setQueue (s.staging.queue.drop 1)

/-- A deferred entry is CLOSED again at the head of the queue (R39, R58). -/
def deferEntry (i : Fin 8) (s : State) : State :=
  (s.setEntry i { s.entry i with state := .closed }).setQueue (i :: s.staging.queue)

/-- The STUCK entry becomes CLOSED at the head with attempt count 0 (R41). -/
def resumeEntry (s : State) : State :=
  match s.findEntry fun e => e.state == .stuck with
  | some i => (s.setEntry i { s.entry i with state := .closed, attempts := 0 }).setQueue (i :: s.staging.queue)
  | none => s

/-- FLUSH: mark every entry that is not EMPTY, close the GATHERING entries, and set FLUSH DONE at once if no entry is
marked (R44). -/
def flushStaging (s : State) : State :=
  let marked := s.staging.entries.map fun e => if e.state = .empty then e else { e with cohort := true }
  let s1 := closeAll { s with staging := { s.staging with entries := marked } }
  if s1.flushPending then s1 else s1.setFlag .flushDone

/-! ## Read forwarding (R42) -/

/-- The entries for a page from newest to oldest: GATHERING, CLOSED newest close first, COMMITTING or STUCK. -/
def State.forwardOrder (s : State) : List (Fin 8) :=
  (entryNumbers.filter fun i => (s.entry i).state == .gathering) ++ s.staging.queue.reverse ++
    (entryNumbers.filter fun i => (s.entry i).state == .committing || (s.entry i).state == .stuck)

/-- The staged byte an entry supplies for a page offset. -/
def Entry.supplies (e : Entry) (page o : Nat) : Option Byte :=
  if e.page = some page then assocGet e.staged o else none

/-- The byte the staging buffer supplies for a page offset, from the newest entry that covers it (R42). -/
def State.forward (s : State) (page o : Nat) : Option Byte :=
  s.forwardOrder.findSome? fun i => (s.entry i).supplies page o

/-! ## The latch gains a cause (R133) -/

/-- Hand a cause to the service controller. -/
def addCause (c : Cause) (s : State) : State :=
  let l := s.service.latch
  let s1 := { s with service := { s.service with latch := l.add c } }
  if l.isSet then s1
  else
    let s2 := s1.setFlag .readOnly
    if s2.service.state = .active then refuseHeld (closeAll s2) else s2

end Sys2Proof.Machine
end

