-- ==== Sys2Proof/Machine/Blocks.lean ====
section
/-! DEFINITION. The block manager (spec 04; R19 to R22): free pool, erase queue, reclaim triggers and victim, slot
requests, condemned blocks, erase results, retirement and the capacity check. -/

namespace Sys2Proof.Machine

/-! ## Tables -/

/-- The records in a state. -/
def State.recordsIn (s : State) (st : BlockState) : List (BlockRef × BlockRecord) :=
  s.blocks.records.filter fun p => p.2.state == st

/-- Pool order: ascending erase count, then block reference (R74). -/
def poolKey (p : BlockRef × BlockRecord) : Nat := p.2.eraseCount * 128 + p.1.val

/-- The free pool in its order (R74). -/
def State.pool (s : State) : List (BlockRef × BlockRecord) := sortByKey poolKey (s.recordsIn .free)

/-- The free-pool count F (R74). -/
def State.freeCount (s : State) : Nat := (s.recordsIn .free).length

/-- The retired count (R72). -/
def State.retiredCount (s : State) : Nat := (s.recordsIn .retired).length

/-- A block of the bank is ERASING (R85). -/
def State.bankErasing (s : State) (bk : BankId) : Bool :=
  (s.recordsIn .erasing).any fun p => BlockRef.bank p.1 == bk

/-- Usable data slots U (R89). -/
def State.usableSlots (s : State) : Nat :=
  Config.dataSlots * (s.blocks.records.filter fun p => p.2.state != .retired).length

/-- The element with the least key, the first of equals. -/
def leastBy {α : Type} (key : α → Nat) : List α → Option α
  | [] => none
  | x :: t =>
    match leastBy key t with
    | none => some x
    | some y => if key y < key x then some y else some x

/-! ## Erase queue (R84, R85) -/

/-- Start the oldest queued block of a bank with no ERASING block, when state, PFAIL and restart-pending allow
(R85). -/
def serveBank (bk : BankId) (s : State) : State :=
  if s.bankErasing bk || s.pins.pfail || s.drain.restartPending ||
      !(s.service.state == .active || s.service.state == .draining) then s
  else
    match s.blocks.eraseQueue.find? fun b => BlockRef.bank b == bk with
    | some b =>
      let s1 := s.modifyRecord b fun r => { r with state := .erasing }
      handErase { block := b, requester := .blockManager }
        { s1 with blocks := { s1.blocks with eraseQueue := s1.blocks.eraseQueue.erase b } }
    | none => s

/-- Serve the erase queue for each bank (R85). -/
def serveErases (s : State) : State := serveBank .b (serveBank .a s)

/-- A block joins the tail of the erase queue as PENDING-ERASE, and the queue is served (R84, R85). -/
def joinErase (b : BlockRef) (s : State) : State :=
  let s1 := s.modifyRecord b fun r => { r with state := .pendingErase }
  serveErases { s1 with blocks := { s1.blocks with eraseQueue := s1.blocks.eraseQueue ++ [b] } }

/-! ## Reclaim triggers (R79 to R83) -/

/-- FULL blocks a trigger may choose: not the block awaiting the page of its slot 127 (R75). -/
def State.fullBlocks (s : State) : List (BlockRef × BlockRecord) :=
  (s.recordsIn .full).filter fun p => s.blocks.awaiting != some p.1

/-- The condemned trigger's victim: lowest reference among condemned FULL blocks (R80). -/
def State.condemnedVictim (s : State) : Option BlockRef :=
  (leastBy (fun p : BlockRef × BlockRecord => p.1.val) (s.fullBlocks.filter fun p => p.2.condemned)).map Prod.fst

/-- Order of the space trigger: fewest live, lowest erase count, lowest reference (R81). -/
def spaceKey (p : BlockRef × BlockRecord) : Nat :=
  (p.2.live * (Config.maxEraseCount + 1) + p.2.eraseCount) * 128 + p.1.val

/-- The space trigger's victim (R81). -/
def State.spaceVictim (s : State) : Option BlockRef :=
  if s.freeCount ≤ s.mgmt.params.reclaimThreshold then
    (leastBy spaceKey (s.fullBlocks.filter fun p => decide (p.2.live < Config.dataSlots))).map Prod.fst
  else none

/-- The largest erase count over non-RETIRED data blocks (R82). -/
def State.largestCount (s : State) : Nat :=
  ((s.blocks.records.filter fun p => p.2.state != .retired).map fun p => p.2.eraseCount).foldl max 0

/-- The levelling trigger's victim (R82). -/
def State.levellingVictim (s : State) : Option BlockRef :=
  if s.mgmt.params.reclaimThreshold < s.freeCount then
    match leastBy poolKey (s.fullBlocks.filter fun p => !p.2.condemned) with
    | some p => if s.mgmt.params.wearLimit < s.largestCount - p.2.eraseCount then some p.1 else none
    | none => none
  else none

/-- The victim a trigger evaluation chooses, with its kind: condemned, then space, then levelling (R79). -/
def State.triggered (s : State) : Option (ReclaimKind × BlockRef) :=
  match s.condemnedVictim with
  | some b => some (.condemned, b)
  | none =>
    match s.spaceVictim with
    | some b => some (.space, b)
    | none => s.levellingVictim.map fun b => (.levelling, b)

/-- A block becomes the victim (R83). -/
def chooseVictim (kind : ReclaimKind) (b : BlockRef) (s : State) : State :=
  let s1 := s.modifyRecord b fun r => { r with state := .victim }
  { s1 with blocks := { s1.blocks with reclaim := kind, victim := some b, scanPos := 1 } }

/-- A trigger evaluation (R79). -/
def evaluateTriggers (s : State) : State :=
  if s.service.state = .active ∧ s.blocks.victim = none ∧ s.service.latch.reclaimHalted = false then
    match s.triggered with
    | some (kind, b) => chooseVictim kind b s
    | none => s
  else s

/-- The victim finishes: it joins the erase queue and the reclaim context is reset (R78). -/
def finishVictim (s : State) : State :=
  match s.blocks.victim with
  | some v =>
    let s1 := { s with blocks := { s.blocks with reclaim := .none, victim := none, scanPos := 1 } }
    evaluateTriggers (joinErase v s1)
  | none => s

/-! ## Notices (R73, R76, R77) -/

/-- A live + 1 notice (R73); it brings in the page a block awaited for its slot 127 (R75). -/
def livePlus (b : BlockRef) (s : State) : State :=
  let s1 := s.modifyRecord b fun r => { r with live := r.live + 1 }
  if s1.blocks.awaiting = some b then { s1 with blocks := { s1.blocks with awaiting := none } } else s1

/-- A live − 1 notice (R73): a FULL block that reaches 0 joins the erase queue, unless it awaits its last page; the
victim finishes if the notice is a commit's (R78). -/
def liveMinus (b : BlockRef) (fromCommit : Bool) (s : State) : State :=
  let s1 := s.modifyRecord b fun r => { r with live := r.live - 1 }
  match s1.record b with
  | some r =>
    if r.live = 0 then
      if r.state = .full ∧ s1.blocks.awaiting ≠ some b then joinErase b s1
      else if r.state = .victim ∧ fromCommit = true then finishVictim s1
      else s1
    else s1
  | none => s1

/-- A condemn notice (R76). -/
def condemn (b : BlockRef) (s : State) : State :=
  match s.record b with
  | none => s
  | some r =>
    if r.condemned then s
    else
      match r.state with
      | .free => s
      | .retired => s
      | .opened =>
        let s1 := s.modifyRecord b fun r => { r with state := .full, condemned := true }
        let s2 := { s1 with blocks := { s1.blocks with openBlock := none } }
        evaluateTriggers (if r.live = 0 then joinErase b s2 else s2)
      | .full =>
        let s1 := s.modifyRecord b fun r => { r with condemned := true }
        if s1.blocks.awaiting = some b then
          let s2 := { s1 with blocks := { s1.blocks with awaiting := none } }
          evaluateTriggers (if r.live = 0 then joinErase b s2 else s2)
        else evaluateTriggers s1
      | .victim =>
        let s1 := s.modifyRecord b fun r => { r with condemned := true }
        evaluateTriggers { s1 with blocks := { s1.blocks with reclaim := .condemned } }
      | .pendingErase => evaluateTriggers (s.modifyRecord b fun r => { r with condemned := true })
      | .erasing => evaluateTriggers (s.modifyRecord b fun r => { r with condemned := true })

/-- The scan position moves past a slot (R77). -/
def advanceScan (s : State) : State := { s with blocks := { s.blocks with scanPos := s.blocks.scanPos + 1 } }

/-- A moved notice: the scan position advances, and the victim finishes if no live page is left (R77, R78). -/
def movedNotice (s : State) : State :=
  let s1 := advanceScan s
  match s1.blocks.victim with
  | some v =>
    match s1.record v with
    | some r => if r.live = 0 then finishVictim s1 else s1
    | none => s1
  | none => s1

/-! ## Slot requests (R19 to R22, R75) -/

/-- Who asks for a slot (R21). -/
inductive Requester where
  | hostCommit
  | reclaimMove
  deriving DecidableEq, Repr

/-- The answer to a slot request: a slot, a wait for the IN USE program of a newly taken block, or a refusal. -/
inductive SlotAnswer where
  | slot (n : SlotRef)
  | inUse
  | refused
  deriving DecidableEq, Repr

/-- The block to be taken: the first of the pool whose bank has no ERASING block, or the first of the pool (R20). -/
def State.poolChoice (s : State) : Option (BlockRef × BlockRecord) :=
  match s.pool.find? fun p => !s.bankErasing (BlockRef.bank p.1) with
  | some p => some p
  | none => s.pool.head?

/-- Whether a requester may take the chosen block (R21). -/
def State.mayTake (s : State) (q : Requester) : Bool :=
  match q with
  | .hostCommit => decide ((if s.service.state = .draining then 1 else Config.hostReserve) ≤ s.freeCount)
  | .reclaimMove => decide (1 ≤ s.freeCount)

/-- Take slot `n` of the open block (R19); at slot 127 the block becomes FULL and awaits that slot's page (R75). -/
def takeSlot (b : BlockRef) (n : Nat) (s : State) : State :=
  let s1 := s.modifyRecord b fun r => { r with claimed := n, state := if n = 127 then .full else r.state }
  if n = 127 then
    evaluateTriggers { s1 with blocks := { s1.blocks with openBlock := none, awaiting := some b } }
  else { s1 with blocks := { s1.blocks with openBlock := some (b, n + 1) } }

/-- Take a block from the pool as the open block and request its IN USE program; reserve hold clears and the triggers
are evaluated (R22, R52, R74). -/
def takeBlock (b : BlockRef) (r : BlockRecord) (s : State) : State :=
  let s1 := s.modifyRecord b fun r => { r with state := .opened, claimed := 0 }
  let s2 := { s1 with blocks := { s1.blocks with openBlock := some (b, 1) } }
  let prog := DescProgram.inUse (byteOf r.eraseCount)
  handOver (BlockRef.bank b) .mover (.descriptor b prog prog.start) (evaluateTriggers (s2.setReserveHold false))

/-- A slot request (R75). -/
def slotRequest (q : Requester) (s : State) : SlotAnswer × State :=
  match s.blocks.openBlock with
  | some (b, n) => (.slot { block := b, slot := Fin.ofNat 128 n }, takeSlot b n s)
  | none =>
    match s.poolChoice with
    | some (b, r) => if s.mayTake q then (.inUse, takeBlock b r s) else (.refused, s)
    | none => (.refused, s)

/-! ## Erase results and descriptors (R86 to R89) -/

/-- The capacity check (R89). -/
def capacityCheck (s : State) : State :=
  if (s.usableSlots : Int) - (s.capacity : Int) < (Config.capacityFloor : Int) then addCause .capacity s else s

/-- Request the RETIRED program of an ERASING block (R88). -/
def requestRetired (b : BlockRef) (count : Nat) (s : State) : State :=
  handOver (BlockRef.bank b) .descriptor (.descriptor b (.retired count) (DescProgram.retired count).start) s

/-- The block manager takes an erase result (R86). Without a table it counts a pass and does nothing else (R145). -/
def takeEraseResult (b : BlockRef) (pass : Bool) (s : State) : State :=
  let s0 := s.bumpIf pass .erases
  match s0.record b with
  | none => s0
  | some r =>
    let count := if pass then nextCount r.eraseCount else r.eraseCount
    let s1 := s0.modifyRecord b fun r => { r with eraseCount := count, claimed := 0, live := 0 }
    if pass && !r.condemned then
      handOver (BlockRef.bank b) .descriptor (.descriptor b (.fresh count) (DescProgram.fresh count).start) s1
    else requestRetired b count s1

/-- The FRESH program of a block has passed: the block joins the pool (R87); a rise of F to 3 clears reserve hold
(R52, R74). -/
def freshPassed (b : BlockRef) (s : State) : State :=
  let before := s.freeCount
  let s1 := s.modifyRecord b fun r => { r with state := .free, condemned := false }
  serveErases (evaluateTriggers (if before ≤ 2 ∧ 3 ≤ s1.freeCount then s1.setReserveHold false else s1))

/-- A retirement ends (R88). -/
def retireBlock (b : BlockRef) (s : State) : State :=
  let s1 := s.modifyRecord b fun r => { r with state := .retired, claimed := 0, live := 0, condemned := false }
  serveErases (evaluateTriggers (capacityCheck (s1.setFlag .blockRetired)))

/-- The block manager takes the result of a FRESH or RETIRED program (R87, R88); without a table it is not acted on
(R145). -/
def takeDescriptorResult (b : BlockRef) (prog : DescProgram) (pass : Bool) (s : State) : State :=
  match s.record b with
  | none => s
  | some r =>
    match prog with
    | .fresh _ => if pass then freshPassed b s else requestRetired b r.eraseCount s
    | .retired _ => retireBlock b s
    | .inUse _ => s

/-- The service state becomes ACTIVE: the triggers are evaluated and the erase queue is served (R79, R85). -/
def enterActive (s : State) : State := serveErases (evaluateTriggers (s.setService .active))

/-- The block table is taken, with its erase queue; FULL blocks with live count 0 join its tail in reference order
(R93). The claimed count of a block in the queue stays (R84). -/
def takeTable (records : List (BlockRef × BlockRecord)) (s : State) : State :=
  let hollow := fun (p : BlockRef × BlockRecord) => p.2.state == .full && p.2.live == 0
  let queued := (records.filter fun p => p.2.state == .pendingErase).map Prod.fst
  let joined := (records.filter hollow).map Prod.fst
  let table := records.map fun p => if hollow p then (p.1, { p.2 with state := .pendingErase }) else p
  capacityCheck { s with blocks := { BlockManager.reset with records := table, eraseQueue := queued ++ joined } }

end Sys2Proof.Machine
end

