-- ==== Sys2Proof/Machine/Mover.lean ====
section
/-! DEFINITION. The page mover (spec 03; R15 to R18): the arbiter, a commit's resolution and tests, in-place commits,
relocations, reclaim moves, failed attempts, deferral and STUCK. -/

namespace Sys2Proof.Machine

/-! ## The operation in progress -/

/-- The mover is idle (R47). -/
def State.moverIdle (s : State) : Bool :=
  match s.mover.activity with
  | .idle => true
  | .scanning => false
  | .running _ => false

/-- Hand the mover's next request over and note the step it belongs to (R48). -/
def moverAsks (r : OpRecord) (phase : Phase) (bk : BankId) (op : ReqOp) (s : State) : State :=
  handOver bk .mover op (s.setActivity (.running { r with phase := phase }))

/-- Who a slot is requested for (R57, R64). -/
def OpRecord.requester (r : OpRecord) : Requester :=
  match r.kind with
  | .commit _ _ => .hostCommit
  | .move _ => .reclaimMove

/-- The staged bytes that overlay the mover buffer: a commit's, none for a move (R53, R64). -/
def overlay (r : OpRecord) (s : State) : List (Nat × Byte) :=
  match r.kind with
  | .commit i _ => (s.entry i).staged
  | .move _ => []

/-- A byte of the image being written: the staged byte, or the mover buffer's (R53). -/
def imageByte (r : OpRecord) (s : State) (o : Nat) : Byte :=
  (assocGet (overlay r s) o).getD (byteAt s.mover.buffer o)

/-- A halfword of the image being written. -/
def imageHalf (r : OpRecord) (s : State) (h : Nat) : HalfWord :=
  halfOf (imageByte r s (2 * h)) (imageByte r s (2 * h + 1))

/-- The first halfword number from `h` on that satisfies `p`. -/
def nextHalf (h : Nat) (p : Nat → Bool) : Option Nat := (List.range 256).find? fun k => decide (h ≤ k) && p k

/-! ## Ends of a commit -/

/-- A commit ends with its entry EMPTY (R39, R54, R55, R60). -/
def endCommit (i : Fin 8) (c : Counter) (s : State) : State := (releaseEntry i (s.bump c)).setActivity .idle

/-- A commit is deferred (R58). -/
def deferCommit (i : Fin 8) (s : State) : State := ((deferEntry i s).setReserveHold true).setActivity .idle

/-- A commit ends with its entry STUCK (R62). -/
def stickCommit (i : Fin 8) (s : State) : State :=
  let s1 := s.setEntry i { s.entry i with state := .stuck }
  ((addCause .commitStuck s1).setFlag .commitFailed).setActivity .idle

/-- A move ends with RECLAIM HALTED (R65); reserve hold clears (R52). -/
def haltReclaim (s : State) : State := ((addCause .reclaimHalted s).setReserveHold false).setActivity .idle

/-! ## Writing a new slot (R57 to R61) -/

/-- No slot could be obtained (R57, R65). -/
def noSlot (r : OpRecord) (s : State) : State :=
  match r.kind with
  | .commit i _ =>
    if s.service.state = .active ∧ s.service.latch.reclaimHalted = false then deferCommit i s else stickCommit i s
  | .move _ => haltReclaim s

/-- With slot `n` obtained, the claim's first program is requested (R59). -/
def beginWrite (r : OpRecord) (n : SlotRef) (s : State) : State :=
  moverAsks { r with newSlot := some n } .claimPage n.bank
    (.program (headerOf n.block) (entryPageHalf n) (BitVec.ofNat 16 r.page)) s

/-- Ask the block manager for a slot and act on the answer (R57); until one is taken the new slot is absent (R47). -/
def seekSlot (r : OpRecord) (s : State) : State :=
  match slotRequest r.requester s with
  | (.slot n, s1) => beginWrite r n s1
  | (.inUse, s1) => s1.setActivity (.running { r with newSlot := none, phase := .awaitInUse })
  | (.refused, s1) => noSlot r s1

/-- Request the next data program from halfword `h` on, skipping FFFFh, or the VALID program after the last (R14,
R59). -/
def writeData (r : OpRecord) (n : SlotRef) (h : Nat) (s : State) : State :=
  match nextHalf h fun k => imageHalf r s k != 0xFFFF#16 with
  | some k => moverAsks r (.data k) n.bank (.program n (Fin.ofNat 256 k) (imageHalf r s k)) s
  | none => moverAsks r .valid n.bank (.mark n codeValid) s

/-- A program of the new slot has failed: the STALE attempt on it is requested (R61). -/
def failAttempt (r : OpRecord) (n : SlotRef) (s : State) : State :=
  moverAsks r .staleNew n.bank (.mark n codeStale) s

/-- After the STALE attempt: condemn, count the attempt, and try again or give up (R61, R62, R65). -/
def afterFailedAttempt (r : OpRecord) (n : SlotRef) (s : State) : State :=
  let s1 := condemn n.block s
  match r.kind with
  | .commit i _ =>
    let e := s1.entry i
    let s2 := s1.setEntry i { e with attempts := e.attempts + 1 }
    if e.attempts + 1 < Config.maxAttempts then seekSlot r s2 else stickCommit i s2
  | .move k =>
    if k + 1 < Config.maxAttempts then seekSlot { r with kind := .move (k + 1) } s1 else haltReclaim s1

/-- The operation has succeeded and its old slot is dealt with (R60, R64). -/
def endWrite (r : OpRecord) (s : State) : State :=
  match r.kind with
  | .commit i _ => endCommit i .relocations s
  | .move _ => (movedNotice (s.bump .reclaimMoves)).setActivity .idle

/-- The operation is a commit. -/
def OpRecord.isCommit (r : OpRecord) : Bool :=
  match r.kind with
  | .commit _ _ => true
  | .move _ => false

/-- The map update (R5, R60, R64): the entry is set, the old slot's STALE program is handed over in the same step,
before the live notices (R97). -/
def mapUpdate (r : OpRecord) (n : SlotRef) (s : State) : State :=
  let s1 := { s with pageMap := assocSet s.pageMap r.page { slot := n, version := r.newVersion } }
  match r.source with
  | some old =>
    let s2 := moverAsks r .staleOld old.slot.bank (.mark old.slot codeStale) s1
    liveMinus old.slot.block r.isCommit (livePlus n.block s2)
  | none => endWrite r (livePlus n.block s1)

/-! ## Commits (R53 to R56) -/

/-- Every staged byte equals the mover buffer's (R15, R54). -/
def silentTest (r : OpRecord) (s : State) : Bool := (overlay r s).all fun p => p.2 == byteAt s.mover.buffer p.1

/-- The in-place test (R16, R55). -/
def inPlaceTest (r : OpRecord) (s : State) : Bool :=
  match r.kind, r.source with
  | .commit _ policy, some src =>
    policy && !s.isCondemned src.slot.block &&
      (overlay r s).all fun p => (p.2 &&& ~~~(byteAt s.mover.buffer p.1)) == 0#8
  | _, _ => false

/-- A halfword of the mover buffer. -/
def bufferHalf (s : State) (h : Nat) : HalfWord := halfAt s.mover.buffer (2 * h)

/-- Request the next in-place program from halfword `h` on, or end the in-place commit (R55). -/
def writeInPlace (r : OpRecord) (i : Fin 8) (src : SlotRef) (h : Nat) (s : State) : State :=
  match nextHalf h fun k => imageHalf r s k != bufferHalf s k with
  | some k => moverAsks r (.inPlace k) src.bank (.program src (Fin.ofNat 256 k) (imageHalf r s k)) s
  | none => endCommit i .inPlaceCommits s

/-- With the mover buffer filled: silent, in place, or relocation (R54, R55). -/
def decideCommit (r : OpRecord) (i : Fin 8) (s : State) : State :=
  if silentTest r s then endCommit i .silentCommits s
  else
    match inPlaceTest r s, r.source with
    | true, some src => writeInPlace r i src.slot 0 s
    | _, _ => seekSlot r s

/-- The mover buffer takes these bytes. -/
def fillBuffer (bytes : List Byte) (s : State) : State := { s with mover := { s.mover with buffer := bytes } }

/-- A commit starts (R38, R53). -/
def startCommit (i : Fin 8) (s : State) : State :=
  let page := (s.entry i).page.getD 0
  let src := s.mapped page
  let r : OpRecord :=
    { kind := .commit i (s.mgmt.params.inPlacePolicy == 1), page := page, source := src,
      newVersion := nextVersion src, newSlot := none, phase := .fill }
  let s1 := (startEntry i s).setActivity (.running r)
  match src with
  | some e => moverAsks r .fill e.slot.bank (.readSlot e.slot) s1
  | none => decideCommit r i (fillBuffer (List.replicate 512 0xFF#8) s1)

/-! ## Reclaim moves (R63, R64) -/

/-- Read the owner entry at the scan position, or end the scan past slot 127 (R63). -/
def scanNext (s : State) : State :=
  match s.blocks.victim with
  | some v =>
    if s.blocks.scanPos ≤ 127 then
      handOver (BlockRef.bank v) .mover (.readEntry { block := v, slot := Fin.ofNat 128 s.blocks.scanPos })
        (s.setActivity .scanning)
    else finishVictim (s.setActivity .idle)
  | none => s.setActivity .idle

/-- Slot `x` of the victim holds a live page: its entry is VALID, names a page below L, and the map names `x` for it
(R18, R63). -/
def liveSlot (x : SlotRef) (e : OwnerEntry) (s : State) : Option MapEntry :=
  if e.code = codeValid ∧ e.page < s.capacity then
    match s.mapped e.page with
    | some m => if m.slot = x then some m else none
    | none => none
  else none

/-- An owner entry of the victim has been read: a move begins, or the slot is skipped (R63, R64). -/
def scanEntry (bytes : List Byte) (s : State) : State :=
  match s.blocks.victim with
  | some v =>
    let x : SlotRef := { block := v, slot := Fin.ofNat 128 s.blocks.scanPos }
    let e := entryAt bytes 0
    match liveSlot x e s with
    | some m =>
      moverAsks { kind := .move 0, page := e.page, source := some m, newVersion := nextVersion (some m),
                  newSlot := none, phase := .fill } .fill x.bank (.readSlot x) s
    | none => scanNext (advanceScan s)
  | none => s.setActivity .idle

/-! ## Completions reported to the mover -/

/-- An array read of the mover has returned (R53, R63, R64). -/
def moverReadDone (bytes : List Byte) (s : State) : State :=
  match s.mover.activity with
  | .idle => s
  | .scanning => scanEntry bytes s
  | .running r =>
    match r.phase, r.kind with
    | .fill, .commit i _ => decideCommit r i (fillBuffer bytes s)
    | .fill, .move _ => seekSlot r (fillBuffer bytes s)
    | _, _ => s

/-- A program of the mover has completed (R55, R56, R59 to R61, R64 to R66). -/
def moverProgramDone (pass : Bool) (s : State) : State :=
  match s.mover.activity with
  | .idle => s
  | .scanning => s
  | .running r =>
    match r.phase, r.newSlot, r.source with
    | .inPlace h, _, some src =>
      match r.kind with
      | .commit i _ =>
        if pass then writeInPlace r i src.slot (h + 1) s else seekSlot r (condemn src.slot.block s)
      | .move _ => s
    | .claimPage, some n, _ =>
      if pass then
        moverAsks r .claimState n.bank
          (.program (headerOf n.block) (entryStateHalf n) (entryWord codeClaimed r.newVersion)) s
      else failAttempt r n s
    | .claimState, some n, _ => if pass then writeData r n 0 s else failAttempt r n s
    | .data h, some n, _ => if pass then writeData r n (h + 1) s else failAttempt r n s
    | .valid, some n, _ => if pass then mapUpdate r n s else failAttempt r n s
    | .staleNew, some n, _ => afterFailedAttempt r n s
    | .staleOld, _, some src => endWrite r (if pass then s else condemn src.slot.block s)
    | _, _, _ => s

/-- The IN USE program of a newly taken block has completed: its slot 1 is taken, or the block is condemned and the
request is made again (R22, R75). -/
def inUseDone (b : BlockRef) (pass : Bool) (s : State) : State :=
  match s.mover.activity with
  | .idle => s
  | .scanning => s
  | .running r =>
    match r.phase with
    | .awaitInUse => seekSlot r (if pass then s else condemn b s)
    | _ => s

/-! ## The arbiter (R49 to R51) -/

/-- The commit source waits (R49). -/
def State.commitWaits (s : State) : Bool :=
  (s.service.state == .active || s.service.state == .draining) && !s.hasStuck && !s.mover.reserveHold &&
    !s.staging.queue.isEmpty

/-- The reclaim source waits (R49). -/
def State.reclaimWaits (s : State) : Bool :=
  s.service.state == .active && s.blocks.victim.isSome && decide (s.blocks.scanPos ≤ 127) &&
    !s.service.latch.reclaimHalted

/-- The victim is condemned and has live pages (R50, case 1). -/
def State.victimUrgent (s : State) : Bool :=
  match s.blocks.victim with
  | some v =>
    match s.record v with
    | some r => r.condemned && decide (0 < r.live)
    | none => false
  | none => false

/-- The source the arbiter grants; none when no source waits (R50). -/
def State.granted (s : State) : LastGrant :=
  match s.commitWaits, s.reclaimWaits with
  | false, false => .none
  | true, false => .commit
  | false, true => .move
  | true, true => if s.victimUrgent then .move else if s.mover.lastGrant = .commit then .move else .commit

/-- Note the grant (R50). -/
def noteGrant (g : LastGrant) (s : State) : State := { s with mover := { s.mover with lastGrant := g } }

/-- One grant, if the mover is idle and a source waits (R51). -/
def grantOnce (s : State) : State :=
  if s.moverIdle then
    match s.granted, s.staging.queue with
    | .commit, i :: _ => startCommit i (noteGrant .commit s)
    | .move, _ => scanNext (noteGrant .move s)
    | _, _ => s
  else s

/-- Grants until the mover is busy or no source waits. A grant that needs no flash ends in the same step; at most nine
commits, one deferral and one reclaim grant can do so, so the bound is never reached. -/
def arbitrate : Nat → State → State
  | 0, s => s
  | n + 1, s => if s.moverIdle && s.granted != .none then arbitrate n (grantOnce s) else s

/-- After an event: the arbiter grants, then each bank makes its choice (R50, R98). -/
def settle (s : State) : State := kickBanks (arbitrate 32 s)

end Sys2Proof.Machine
end

