-- ==== Sys2Proof/Machine/Port.lean ====
section
/-! DEFINITION. The host port (spec 06): arrival, treatment by service state, resolution of reads, the return of a
halfword, hold expiry and the withdrawal of strobes. -/

namespace Sys2Proof.Machine

/-- READY is high in IDLE and DONE (R114). -/
def State.ready (s : State) : Bool := s.port.state == .idle || s.port.state == .done

/-- The outcome of the current cycle while the port is DONE. -/
def State.doneOutcome (s : State) : Option CycleOutcome :=
  match s.port.state, s.port.cycle with
  | .done, some c => c.outcome
  | _, _ => none

/-- FAULT is asserted in DONE after a faulted completion (R114, R116). -/
def State.faultPin (s : State) : Bool :=
  match s.doneOutcome with
  | some o => o.fault
  | none => false

/-- The data lines, when driven: in DONE of a read (R116). -/
def State.dataLines (s : State) : Option HalfWord := s.doneOutcome.bind fun o => o.data

/-- A volume is mounted: L is in force for host cycles and QUERY PAGE (R117, R168). -/
def State.volumeMounted (s : State) : Bool :=
  s.service.state == .active || s.service.state == .draining ||
    (s.service.state == .drained && s.drain.returnState == some .active)

/-! ## Reads (R121, R122) -/

/-- The two data bytes of a read, lower lane low: each staged byte, or the byte from elsewhere. -/
def readData (c : Cycle) (other : HalfWord) : HalfWord :=
  halfOf (c.stagedLow.getD other.low) (c.stagedHigh.getD other.high)

/-- A read completes normally and is counted (R122, R126). -/
def completeRead (c : Cycle) (other : HalfWord) (s : State) : State :=
  (completeCycle false (some (readData c other)) s).bump .hostReads

/-- Replace the current cycle record. -/
def setCycle (c : Cycle) (s : State) : State := { s with port := { s.port with cycle := some c } }

/-- Hand the bank read of a cycle to its bank; while the slot is still occupied by a withdrawn read the port holds
it (R99, R122). -/
def askBank (c : Cycle) (slot : SlotRef) (s : State) : State :=
  match (s.bank slot.bank).hostRead with
  | some _ => setCycle { c with wait := .bank, handed := false } s
  | none => handHostRead slot c.offset (setCycle { c with wait := .bank, handed := true } s)

/-- Resolve a read at this moment (R121); a read handed to its bank is considered there at once (R98, R103). -/
def resolveRead (c : Cycle) (s : State) : State :=
  let c1 := { c with
    stagedLow := s.forward c.page c.offset
    stagedHigh := s.forward c.page (c.offset + 1)
    slot := (s.mapped c.page).map fun e => e.slot }
  let s1 := setCycle c1 s
  if c1.stagedLow.isSome && c1.stagedHigh.isSome then completeRead c1 0xFFFF#16 s1
  else
    match c1.slot with
    | none => completeRead c1 0xFFFF#16 s1
    | some slot => kickBank slot.bank (askBank c1 slot s1)

/-- The halfword of the host read has returned (R99, R122): the cycle completes, or the data of a withdrawn read is
discarded and a read the port held is handed over. -/
def hostReadDone (bk : BankId) (bytes : List Byte) (s : State) : State :=
  let k := s.bank bk
  let s1 := s.setBank bk { k with hostRead := none }
  match s1.waiting .bank with
  | none => s1
  | some c =>
    if c.handed then
      match k.hostRead with
      | some h => if h.withdrawn || c.slot.map SlotRef.bank != some bk then s1 else completeRead c (halfAt bytes 0) s1
      | none => s1
    else
      match c.slot with
      | some slot => if slot.bank = bk then askBank c slot s1 else s1
      | none => s1

/-! ## Treatment (R115, R117 to R120) -/

/-- A cycle to a page at or above L: FAULT and RANGE FAULT (R118). -/
def faultRange (c : Cycle) (s : State) : State :=
  (completeCycle true (if c.kind = .read then some 0xFFFF#16 else none) s).setFlag .rangeFault

/-- A write that passes the checks (R25, R120): complete at once when no byte is enabled; otherwise handed to the
staging buffer, and an entry that closes may be granted at once (R50). -/
def stageWrite (c : Cycle) (s : State) : State :=
  if !c.lower && !c.upper then completeCycle false none s else settle (handWrite c s)

/-- Treat a cycle in a state with a volume, after the range check (R117, R118, R120, R121). -/
def treatInRange (c : Cycle) (s : State) : State :=
  match c.kind with
  | .read => resolveRead c s
  | .write =>
    if s.service.state = .active ∧ s.service.latch.isSet = false then stageWrite c s else refuseWrite s
  | .both => completeCycle true none s

/-- Treat a cycle in a state without a volume; `readFaults` says whether a read is faulted (R117). -/
def treatNoVolume (readFaults : Bool) (c : Cycle) (s : State) : State :=
  match c.kind with
  | .read => completeCycle readFaults (some 0xFFFF#16) s
  | .write => refuseWrite s
  | .both => completeCycle true none s

/-- Treat the current cycle by the service state at this moment (R117). -/
def treatCycle (c : Cycle) (s : State) : State :=
  match s.service.state with
  | .mounting => setWait .mount s
  | .unformatted => treatNoVolume false c s
  | .formatting => treatNoVolume true c s
  | .active => if s.capacity ≤ c.page then faultRange c s else treatInRange c s
  | .draining => if s.capacity ≤ c.page then faultRange c s else treatInRange c s
  | .drained =>
    if s.volumeMounted then if s.capacity ≤ c.page then faultRange c s else treatInRange c s
    else treatNoVolume false c s

/-- The record of an arriving cycle (R114, R115). -/
def newCycle (kind : CycleKind) (addr : BitVec 22) (lower upper : Bool) (data : Option HalfWord) (s : State) : Cycle :=
  { kind := kind, page := pageOf addr, offset := offsetOf addr, lower := lower, upper := upper, data := data,
    arrival := s.now, holdLimit := s.mgmt.params.holdLimit, wait := .none, stagedLow := none, stagedHigh := none,
    slot := none, handed := false, outcome := none }

/-- A cycle arrives at an IDLE port: the record is filled, the hold timer starts and the cycle is treated; with both
strobes it completes at once with FAULT (R115). -/
def arrive (c : Cycle) (s : State) : State :=
  let s1 := { s with port := { state := .holding, holdTimer := some c.holdLimit, cycle := some c } }
  match c.kind with
  | .both => completeCycle true none s1
  | .read => treatCycle c s1
  | .write => treatCycle c s1

/-- The arrival that the strobes now asserted make (R115, R127). -/
def arriveFromPins (s : State) : State :=
  match s.pins.strobes with
  | .none => s
  | .read a lo up => arrive (newCycle .read a lo up none s) s
  | .write a lo up d => arrive (newCycle .write a lo up (some d) s) s
  | .both a lo up => arrive (newCycle .both a lo up none s) s

/-- The host asserts strobes: noted on the pins, and an arrival when the port is IDLE. A strobe asserted in HOLDING or
DONE makes no new arrival; in IN RESET no arrival is taken (R115, R127). DESIGN CHOICE (log 32): in HOLDING and DONE it
is not noted on the pins either, so that a release of RESET while the strobes still stand takes the strobes and lines
of the arrival, or the last ones asserted in IN RESET. -/
def assertStrobes (x : Strobes) (s : State) : State :=
  match s.port.state with
  | .idle => arriveFromPins { s with pins := { s.pins with strobes := x } }
  | .inReset => { s with pins := { s.pins with strobes := x } }
  | .holding => s
  | .done => s

/-- A cycle held for the mount is treated in the state the mount reached (R119). -/
def releaseMountHold (s : State) : State :=
  match s.waiting .mount with
  | some c => treatCycle c s
  | none => s

/-- Withdraw the current cycle's bank read, if one has been handed over (R99). -/
def withdrawCycleRead (c : Cycle) (s : State) : State :=
  match c.wait, c.handed, c.slot with
  | .bank, true, some slot => withdrawHostRead slot.bank s
  | _, _, _ => s

/-- The hold timer of a HOLDING cycle runs out (R124). -/
def expireHold (s : State) : State :=
  match s.port.state, s.port.cycle with
  | .holding, some c =>
    let s1 := completeCycle true (if c.kind = .read then some 0xFFFF#16 else none) (withdrawCycleRead c s)
    (s1.setFlag .holdTimeout).bump .holdTimeouts
  | _, _ => s

/-- The port is IDLE with no cycle and no strobe (R116, R125). -/
def portIdle (s : State) : State :=
  { s with port := { state := .idle, holdTimer := none, cycle := none }, pins := { s.pins with strobes := .none } }

/-- The host withdraws its strobes: a DONE cycle ends, a HOLDING cycle is abandoned (R116, R125). -/
def withdrawStrobes (s : State) : State :=
  match s.port.state with
  | .done => portIdle s
  | .holding =>
    match s.port.cycle with
    | some c => portIdle (withdrawCycleRead c s)
    | none => portIdle s
  | .inReset => { s with pins := { s.pins with strobes := .none } }
  | .idle => s

end Sys2Proof.Machine
end

