-- ==== Sys2Proof/Machine/Volume.lean ====
section
/-! DEFINITION. The volume engine (spec 07): mount and format; with them the DRAINED line, which the mount's end may
assert. -/

namespace Sys2Proof.Machine

/-! ## The DRAINED line (R153) -/

/-- Assert the DRAINED line; DRAIN DONE is set when it rises (R153). -/
def assertLine (s : State) : State :=
  if s.drain.line then s else ({ s with drain := { s.drain with line := true } }).setFlag .drainDone

/-- Deassert the DRAINED line. -/
def dropLine (s : State) : State := { s with drain := { s.drain with line := false } }

/-- Set the return state (R151). -/
def setReturn (r : Option ReturnState) (s : State) : State := { s with drain := { s.drain with returnState := r } }

/-! ## Mount: access -/

/-- The mount's work on a bank. -/
def MountWork.bank (w : MountWork) : BankId → MountBank
  | .a => w.a
  | .b => w.b

/-- Replace the mount's work on a bank. -/
def MountWork.setBank (w : MountWork) (bk : BankId) (x : MountBank) : MountWork :=
  match bk with
  | .a => { w with a := x }
  | .b => { w with b := x }

/-- Replace the phase of a bank. -/
def MountWork.setPhase (w : MountWork) (bk : BankId) (p : MountPhase) : MountWork :=
  w.setBank bk { w.bank bk with phase := p }

/-- A bank's work before anything has been found. -/
def MountBank.start (p : MountPhase) : MountBank := { phase := p, found := [], candidates := [], bad := [] }

/-- A mount begins: a bank reset of each present bank (R135). -/
def beginMount (s : State) : State :=
  let fitted := strapPresent s.service.strap .b
  let w : MountWork :=
    { a := .start .resetting, b := .start (if fitted then .resetting else .absent), valid := false,
      repaired := false, condemned := [] }
  let s1 := beginBankReset .a (s.setEngine (.mount w))
  if fitted then beginBankReset .b s1 else s1

/-! ## Mount: record and scan (R136 to R138) -/

/-- Begin the scan of a bank's data blocks (R137). -/
def startScan (bk : BankId) (w : MountWork) (s : State) : State :=
  match dataBlocks s.service.strap bk with
  | [] => s.setEngine (.mount (w.setPhase bk .scanned))
  | b :: t =>
    handOver bk .volume (.readSlot (headerOf b)) (s.setEngine (.mount (w.setPhase bk (.scanning (b :: t)))))

/-- A bank reset of the mount's start has ended (R135): bank A's volume record is read; bank B scans if the record has
been found valid. -/
def mountResetDone (bk : BankId) (w : MountWork) (s : State) : State :=
  match (w.bank bk).phase, bk with
  | .resetting, .a =>
    handOver .a .volume (.readSlot (headerOf volumeBlock)) (s.setEngine (.mount (w.setPhase .a .record)))
  | .resetting, .b => if w.valid then startScan .b w s else s.setEngine (.mount (w.setPhase .b .waiting))
  | _, _ => s

/-- The mount ends with no valid volume record: UNFORMATTED (R136). -/
def endUnformatted (s : State) : State :=
  releaseMountHold ((((s.setEngine .idle).setService .unformatted).setFlag .unformatted).setFlag .mountDone)

/-- Set the format serial from a readable record (R131, R136). -/
def setSerial (n : BitVec 16) (s : State) : State := { s with service := { s.service with serial := some n } }

/-- Set L and the bank count (R131). -/
def setVolume (pages banks : Nat) (s : State) : State :=
  { s with service := { s.service with pages := some pages, bankCount := some banks } }

/-- The volume record has been read (R136). -/
def mountRecordRead (bytes : List Byte) (w : MountWork) (s : State) : State :=
  let r := volumeAt bytes
  let s1 := if r.readable then setSerial r.serial s else s
  if r.valid s.service.strap then
    let w1 := { w with valid := true }
    let s2 := startScan .a w1 (setVolume r.pages r.banks.toNat s1)
    match w1.b.phase, s2.engine with
    | .waiting, .mount w2 => startScan .b w2 s2
    | _, _ => s2
  else endUnformatted s1

/-- Owner entries 1 to 127 of a header, with their slots. -/
def headerEntries (b : BlockRef) (bytes : List Byte) : List (SlotRef × OwnerEntry) :=
  (List.range 127).map fun i =>
    ({ block := b, slot := Fin.ofNat 128 (i + 1) }, entryAt bytes (4 * (i + 1)))

/-- The entry is a candidate: VALID and naming a page below L (R138). -/
def OwnerEntry.isCandidate (e : OwnerEntry) (pages : Nat) : Bool := e.code == codeValid && decide (e.page < pages)

/-- The entry is repaired: neither blank, nor STALE, nor a candidate (R138). -/
def OwnerEntry.isBad (e : OwnerEntry) (pages : Nat) : Bool :=
  !e.isBlank && e.code != codeStale && !e.isCandidate pages

/-- The highest slot number whose owner entry is not blank, or 0 (R138). -/
def claimedIn (entries : List (SlotRef × OwnerEntry)) : Nat :=
  entries.foldl (fun acc p => if p.2.isBlank then acc else p.1.slot.val) 0

/-- What the scan of one block adds to a bank's findings (R137, R138). -/
def scanBlock (b : BlockRef) (bytes : List Byte) (pages : Nat) (x : MountBank) : MountBank :=
  let cls := scanClass (byteAt bytes 0)
  let entries := if cls = .inUse then headerEntries b bytes else []
  let rec1 : ScanRecord :=
    { block := b, cls := cls, count := if cls = .unknown then none else some (countAt bytes),
      claimed := claimedIn entries }
  { x with
    found := x.found ++ [rec1]
    candidates := x.candidates ++ (entries.filter fun p => p.2.isCandidate pages).map fun p =>
      { slot := p.1, page := p.2.page, version := p.2.version }
    bad := x.bad ++ (entries.filter fun p => p.2.isBad pages).map Prod.fst }

/-- Slot 0 of a data block has been read (R137). -/
def mountBlockRead (bk : BankId) (b : BlockRef) (rest : List BlockRef) (bytes : List Byte) (w : MountWork)
    (s : State) : State :=
  let x := scanBlock b bytes s.capacity (w.bank bk)
  match rest with
  | [] => s.setEngine (.mount (w.setBank bk { x with phase := .scanned }))
  | c :: t =>
    handOver bk .volume (.readSlot (headerOf c))
      (s.setEngine (.mount (w.setBank bk { x with phase := .scanning (c :: t) })))

/-! ## Mount: choice, repairs and end (R139 to R142) -/

/-- One candidate is taken into the choice: the map so far and the losers so far (R139). -/
def takeCandidate (acc : List (Nat × MapEntry) × List SlotRef) (c : Candidate) :
    List (Nat × MapEntry) × List SlotRef :=
  match assocGet acc.1 c.page with
  | none => (assocSet acc.1 c.page { slot := c.slot, version := c.version }, acc.2)
  | some m =>
    if newer c.version m.version then
      (assocSet acc.1 c.page { slot := c.slot, version := c.version }, acc.2 ++ [m.slot])
    else (acc.1, acc.2 ++ [c.slot])

/-- The choice for every page that has candidates, taken in scan order, and the losers (R139). -/
def chooseCandidates (cands : List Candidate) : List (Nat × MapEntry) × List SlotRef :=
  cands.foldl takeCandidate ([], [])

/-- The phase has ended its scan, or the bank is not fitted. -/
def MountPhase.isScanned : MountPhase → Bool
  | .scanned => true
  | .absent => true
  | _ => false

/-- The phase has ended its repairs, or the bank is not fitted. -/
def MountPhase.isEnded : MountPhase → Bool
  | .ended => true
  | .absent => true
  | _ => false

/-- Start a bank's repairs, in scan order (R140). -/
def startRepairs (bk : BankId) (slots : List SlotRef) (s : State) : State :=
  match s.engine with
  | .mount w =>
    if (w.bank bk).phase = .absent then s
    else
      match sortByKey SlotRef.scanKey (slots.filter fun x => x.bank == bk) with
      | [] => s.setEngine (.mount (w.setPhase bk .ended))
      | x :: t =>
        handOver bk .volume (.mark x codeStale) (s.setEngine (.mount (w.setPhase bk (.repairing (x :: t)))))
  | .idle => s
  | .format _ => s

/-- The scans of both banks have ended and the choice is not made yet (R139). -/
def State.choiceReady (s : State) : Bool :=
  match s.engine with
  | .mount w => w.valid && w.a.phase.isScanned && w.b.phase.isScanned
  | .idle => false
  | .format _ => false

/-- The candidate choice: the map is set and the losers and bad entries are to be repaired (R139, R140). -/
def chooseMount (s : State) : State :=
  match s.engine with
  | .mount w =>
    let r := chooseCandidates (w.a.candidates ++ w.b.candidates)
    let repairs := r.2 ++ w.a.bad ++ w.b.bad
    let s1 := { s with pageMap := r.1, engine := .mount { w with repaired := !repairs.isEmpty } }
    startRepairs .b repairs (startRepairs .a repairs s1)
  | .idle => s
  | .format _ => s

/-- A repair has completed (R140). -/
def mountRepairDone (bk : BankId) (x : SlotRef) (rest : List SlotRef) (pass : Bool) (w : MountWork) (s : State) :
    State :=
  let w1 := if pass then w else { w with condemned := w.condemned ++ [x.block] }
  match rest with
  | [] => s.setEngine (.mount (w1.setPhase bk .ended))
  | y :: t => handOver bk .volume (.mark y codeStale) (s.setEngine (.mount (w1.setPhase bk (.repairing (y :: t)))))

/-- The repairs of both banks have ended (R142). -/
def State.mountReady (s : State) : Bool :=
  match s.engine with
  | .mount w => w.valid && w.a.phase.isEnded && w.b.phase.isEnded
  | .idle => false
  | .format _ => false

/-- The largest count read from a FRESH or IN USE descriptor, or 0 (R141). -/
def largestRead (found : List ScanRecord) : Nat :=
  (found.map fun r => if r.cls = .fresh ∨ r.cls = .inUse then r.count.getD 0 else 0).foldl max 0

/-- The state a scanned block comes up in (R137). -/
def ScanClass.blockState : ScanClass → BlockState
  | .fresh => .free
  | .inUse => .full
  | .retired => .retired
  | .unknown => .pendingErase

/-- The block record a mount builds (R141). -/
def mountRecord (w : MountWork) (map : List (Nat × MapEntry)) (r : ScanRecord) : BlockRef × BlockRecord :=
  (r.block,
    { state := r.cls.blockState
      eraseCount := r.count.getD (largestRead (w.a.found ++ w.b.found))
      claimed := if r.cls = .inUse then r.claimed else 0
      live := (map.filter fun p => p.2.slot.block == r.block).length
      condemned := w.condemned.contains r.block })

/-- The table a mount builds, in block-reference order (R141). -/
def mountTable (w : MountWork) (map : List (Nat × MapEntry)) : List (BlockRef × BlockRecord) :=
  (w.a.found ++ w.b.found).map (mountRecord w map)

/-- The mount ends (R142): the table is handed over, the flags are set, and the state becomes ACTIVE or, with PFAIL
asserted, DRAINED; held cycles are released. -/
def endMount (s : State) : State :=
  match s.engine with
  | .mount w =>
    let s1 := ((takeTable (mountTable w s.pageMap) s).setEngine .idle).setFlag .mountDone
    let s2 := if w.repaired then s1.setFlag .mountRepaired else s1
    releaseMountHold
      (if s2.pins.pfail then assertLine (setReturn (some .active) (s2.setService .drained)) else enterActive s2)
  | .idle => s
  | .format _ => s

/-! ## Format: access -/

/-- The format's work on a bank. -/
def FormatWork.bank (w : FormatWork) : BankId → FormatBank
  | .a => w.a
  | .b => w.b

/-- Replace the format's work on a bank. -/
def FormatWork.setBank (w : FormatWork) (bk : BankId) (x : FormatBank) : FormatWork :=
  match bk with
  | .a => { w with a := x }
  | .b => { w with b := x }

/-- A FORMAT is taken (R144): one step. -/
def takeFormat (pages : Nat) (s : State) : State :=
  let start := fun (p : FormatPhase) => ({ phase := p, known := [], made := [] } : FormatBank)
  let w : FormatWork :=
    { pages := pages, banks := s.service.strap, stage := .reading, a := start .notStarted,
      b := start (if strapPresent s.service.strap .b then .notStarted else .absent), abandoned := false }
  { s with
    service := { s.service with state := .formatting, latch := .none, pages := none, bankCount := none }
    pageMap := []
    blocks := .reset
    mover := { Mover.reset with buffer := s.mover.buffer }
    engine := .format w }

/-- The format fails: UNFORMATTED and FORMAT FAILED (R145, R147, R149). -/
def failFormat (s : State) : State := ((s.setEngine .idle).setService .unformatted).setFlag .formatFailed

/-! ## Format: step 1 and step 2 (R145) -/

/-- The bank may be given the format's first request (R145; log 25). -/
def State.formatStartReady (s : State) (bk : BankId) : Bool :=
  match s.engine with
  | .format w =>
    !w.abandoned && (w.bank bk).phase == .notStarted && !(s.bank bk).eraseInProgress && (s.bank bk).erase.isNone &&
      (s.bank bk).volume.isNone
  | .idle => false
  | .mount _ => false

/-- The first format request to a bank: the descriptor of its first data block (R145). -/
def startFormatBank (bk : BankId) (s : State) : State :=
  match s.engine with
  | .format w =>
    match dataBlocks w.banks bk with
    | [] => s
    | b :: t =>
      handOver bk .volume (.readDescriptor b)
        (s.setEngine (.format (w.setBank bk { w.bank bk with phase := .reading (b :: t) })))
  | .idle => s
  | .mount _ => s

/-- What step 1 keeps of a descriptor: whether RETIRED, and the count if it is known (R145). -/
def knownOf (bytes : List Byte) : Bool × Option Nat :=
  match scanClass (byteAt bytes 0) with
  | .retired => (true, some (countAt bytes))
  | .unknown => (false, none)
  | .fresh => (false, some (countAt bytes))
  | .inUse => (false, some (countAt bytes))

/-- Step 1 has ended on the bank, or the bank is not fitted. -/
def FormatPhase.isRead : FormatPhase → Bool
  | .readDone => true
  | .absent => true
  | _ => false

/-- Step 3 has ended on the bank, or the bank is not fitted. -/
def FormatPhase.isFinished : FormatPhase → Bool
  | .finished => true
  | .absent => true
  | _ => false

/-- A descriptor has been read in step 1; after the last of both banks, the erase of A0 is requested (R145). -/
def formatBlockRead (bk : BankId) (b : BlockRef) (rest : List BlockRef) (bytes : List Byte) (w : FormatWork)
    (s : State) : State :=
  let x := w.bank bk
  let known := x.known ++ [(b, knownOf bytes)]
  match rest with
  | c :: t =>
    handOver bk .volume (.readDescriptor c)
      (s.setEngine (.format (w.setBank bk { x with phase := .reading (c :: t), known := known })))
  | [] =>
    let w1 := w.setBank bk { x with phase := .readDone, known := known }
    if w1.a.phase.isRead && w1.b.phase.isRead then
      handErase { block := volumeBlock, requester := .volumeEngine }
        (s.setEngine (.format { w1 with stage := .erasingVolume }))
    else s.setEngine (.format w1)

/-! ## Format: step 3 (R146) -/

/-- The largest known count (R145). -/
def FormatWork.largestKnown (w : FormatWork) : Nat :=
  ((w.a.known ++ w.b.known).map fun p => if p.2.1 then 0 else p.2.2.getD 0).foldl max 0

/-- The erase count held for a block (R146). -/
def FormatWork.countFor (w : FormatWork) (b : BlockRef) : Nat :=
  match (w.a.known ++ w.b.known).find? fun p => p.1 == b with
  | some p => p.2.2.getD w.largestKnown
  | none => w.largestKnown

/-- A record made by a format: FREE or RETIRED, nothing claimed, nothing live (R148). -/
def madeRecord (st : BlockState) (count : Nat) : BlockRecord :=
  { state := st, eraseCount := count, claimed := 0, live := 0, condemned := false }

/-- The bank goes on to the first of these blocks, or has ended step 3 (R146). -/
def formatNext (bk : BankId) (todo : List BlockRef) (w : FormatWork) (s : State) : State :=
  match todo with
  | [] => s.setEngine (.format (w.setBank bk { w.bank bk with phase := .finished }))
  | b :: t =>
    handErase { block := b, requester := .volumeEngine }
      (s.setEngine (.format (w.setBank bk { w.bank bk with phase := .erasing (w.countFor b) (b :: t) })))

/-- Step 3 begins on a bank: RETIRED blocks stay as read, the others are to be erased (R145, R146). -/
def formatStartBlocks (bk : BankId) (s : State) : State :=
  match s.engine with
  | .format w =>
    let x := w.bank bk
    if x.phase = .absent then s
    else
      let kept := (x.known.filter fun p => p.2.1).map fun p => (p.1, madeRecord .retired (p.2.2.getD 0))
      let todo := (x.known.filter fun p => !p.2.1).map Prod.fst
      formatNext bk todo (w.setBank bk { x with made := kept }) s
  | .idle => s
  | .mount _ => s

/-- Request the RETIRED program of a block in step 3 (R146). -/
def formatRetire (bk : BankId) (count : Nat) (b : BlockRef) (rest : List BlockRef) (w : FormatWork) (s : State) :
    State :=
  handOver bk .volume (.descriptor b (.retired count) (DescProgram.retired count).start)
    (s.setEngine (.format (w.setBank bk { w.bank bk with phase := .retiring count (b :: rest) })))

/-- The erase of a data block in step 3 has ended (R146). -/
def formatBlockErased (bk : BankId) (count : Nat) (b : BlockRef) (rest : List BlockRef) (pass : Bool)
    (w : FormatWork) (s : State) : State :=
  if pass then
    let n := nextCount count
    handOver bk .volume (.descriptor b (.fresh n) (DescProgram.fresh n).start)
      (s.setEngine (.format (w.setBank bk { w.bank bk with phase := .freshing n (b :: rest) })))
  else formatRetire bk count b rest w s

/-- A block of step 3 has reached its end with this record; the bank goes on (R146). -/
def formatBlockMade (bk : BankId) (b : BlockRef) (r : BlockRecord) (rest : List BlockRef) (w : FormatWork)
    (s : State) : State :=
  formatNext bk rest (w.setBank bk { w.bank bk with made := (w.bank bk).made ++ [(b, r)] }) s

/-! ## Format: step 4 and the end (R147, R148) -/

/-- Step 3 has ended on both banks and step 4 has not begun (R146, R147). -/
def State.recordReady (s : State) : Bool :=
  match s.engine with
  | .format w => !w.abandoned && w.stage == .blocks && w.a.phase.isFinished && w.b.phase.isFinished
  | .idle => false
  | .mount _ => false

/-- Request the program of a halfword of the volume record (R147). -/
def writeRecordHalf (half : Fin 256) (w : FormatWork) (s : State) : State :=
  handOver .a .volume
    (.program (headerOf volumeBlock) half (volumeHalf w.banks w.pages (nextSerial s.service.serial) half))
    (s.setEngine (.format { w with stage := .record half }))

/-- Step 4 begins with halfword 1 (R147). -/
def startRecord (s : State) : State :=
  match s.engine with
  | .format w => writeRecordHalf 1 w s
  | .idle => s
  | .mount _ => s

/-- The format completes (R148). -/
def completeFormat (w : FormatWork) (s : State) : State :=
  let table := sortByKey (fun (p : BlockRef × BlockRecord) => p.1.val) (w.a.made ++ w.b.made)
  let s1 := setVolume w.pages (strapBanks w.banks) (setSerial (nextSerial s.service.serial) s)
  let s2 := takeTable table { s1 with pageMap := [] }
  (enterActive (s2.setEngine .idle)).setFlag .formatDone

/-- A halfword of the volume record has been programmed: 1, 2, 3, then 0 (R147). -/
def formatRecordDone (half : Fin 256) (pass : Bool) (w : FormatWork) (s : State) : State :=
  if pass then
    if half = 0 then completeFormat w s
    else if half = 3 then writeRecordHalf 0 w s
    else writeRecordHalf (half + 1) w s
  else failFormat s

/-! ## Completions reported to the volume engine -/

/-- The bank reset of a bank has ended (R110, R135). -/
def volumeResetDone (bk : BankId) (s : State) : State :=
  match s.engine with
  | .mount w => mountResetDone bk w s
  | .idle => s
  | .format _ => s

/-- An array read of the volume engine has returned. -/
def volumeReadDone (bk : BankId) (bytes : List Byte) (s : State) : State :=
  match s.engine with
  | .idle => s
  | .mount w =>
    match (w.bank bk).phase with
    | .record => mountRecordRead bytes w s
    | .scanning (b :: t) => mountBlockRead bk b t bytes w s
    | _ => s
  | .format w =>
    if w.abandoned then s
    else
      match (w.bank bk).phase with
      | .reading (b :: t) => formatBlockRead bk b t bytes w s
      | _ => s

/-- A program of the volume engine has completed (R140, R146, R147). After an abandonment its result is not used (R149);
DESIGN CHOICE (log 31): the format mark's program that was in progress runs to its end, and where it passes the record
in flash is valid. -/
def volumeProgramDone (bk : BankId) (pass : Bool) (s : State) : State :=
  match s.engine with
  | .idle => s
  | .mount w =>
    match (w.bank bk).phase with
    | .repairing (x :: t) => mountRepairDone bk x t pass w s
    | _ => s
  | .format w =>
    if w.abandoned then s
    else
      match w.stage, (w.bank bk).phase with
      | .record half, _ => formatRecordDone half pass w s
      | .blocks, .freshing n (b :: t) =>
        if pass then formatBlockMade bk b (madeRecord .free n) t w s else formatRetire bk n b t w s
      | .blocks, .retiring n (b :: t) =>
        formatBlockMade bk b (madeRecord .retired n) t w (s.setFlag .blockRetired)
      | _, _ => s

/-- An erase of the volume engine has ended (R145, R146); every pass is counted (R145, R149). -/
def takeVolumeErase (bk : BankId) (pass : Bool) (s : State) : State :=
  let s1 := s.bumpIf pass .erases
  match s1.engine with
  | .idle => s1
  | .mount _ => s1
  | .format w =>
    if w.abandoned then s1
    else
      match w.stage, (w.bank bk).phase with
      | .erasingVolume, _ =>
        if pass then formatStartBlocks .b (formatStartBlocks .a (s1.setEngine (.format { w with stage := .blocks })))
        else failFormat s1
      | .blocks, .erasing n (b :: t) => formatBlockErased bk n b t pass w s1
      | _, _ => s1

/-! ## Abandoned formats (R149, R159) -/

/-- Withdraw from a bank the requests not yet begun in its erase and volume slots (R149). DESIGN CHOICE (log 30): an
unbegun array read goes too, as R149 says, where R99 names only a program of the volume slot. A request begun stays
(log 24), the format mark's program among them (log 31). -/
def withdrawUnbegun (bk : BankId) (s : State) : State :=
  let k := s.bank bk
  s.setBank bk { k with
    erase := none
    volume := match k.volume with
      | some r => if r.begun then some r else none
      | none => none }

/-- PFAIL asserted in FORMATTING abandons the format (R149). -/
def abandonFormat (s : State) : State :=
  match s.engine with
  | .format w => withdrawUnbegun .b (withdrawUnbegun .a (s.setEngine (.format { w with abandoned := true })))
  | .idle => s
  | .mount _ => s

/-- The format in progress has been abandoned. -/
def State.formatAbandoned (s : State) : Bool :=
  match s.engine with
  | .format w => s.service.state == .formatting && w.abandoned
  | .idle => false
  | .mount _ => false

end Sys2Proof.Machine
end

