-- ==== Sys2Proof/Machine/Drain.lean ====
section
/-! DEFINITION. Drain control (spec 08), the pin reset (R127, R129) and the internal reset (R161), and what each bank
controller does when PFAIL changes (R111, R112). -/

namespace Sys2Proof.Machine

/-! ## When a drain is done (R152, R155) -/

/-- Commits at rest (R152). -/
def State.commitsAtRest (s : State) : Bool :=
  s.countEntries (fun e => e.state == .gathering || e.state == .committing) == 0 &&
    (s.hasStuck || s.staging.queue.isEmpty) && s.moverIdle

/-- Drain done: commits at rest and banks at rest (R152). -/
def State.drainDone (s : State) : Bool := s.commitsAtRest && s.banksAtRest

/-- The condition the DRAINING state waits for holds, by the row of R155 that applies. -/
def State.drainReady (s : State) : Bool :=
  s.service.state == .draining &&
    (if s.pins.pfail then s.drainDone
     else if s.drain.restartPending then s.drainDone && s.allBanks fun k => !k.eraseInProgress
     else s.commitsAtRest)

/-! ## Resets (R113, R127, R128, R161, R162) -/

/-- A pin reset or power-on with the BANKS pin at a level (R127, R129, R162): every block takes its reset values,
RESET is asserted, and what the flash was carrying out is left where it stands. The other pins keep their levels. -/
def pinReset (banks : Strap) (s : State) : State :=
  let f := interruptFlash s
  { State.reset with
    pins := { s.pins with banks := banks }
    service := { State.reset.service with strap := banks }
    flashA := f.flashA
    flashB := f.flashB
    now := s.now
    freeNext := f.freeNext
    pending := s.pending }

/-- The host port at an internal reset (R128): a HOLDING cycle completes with FAULT, a DONE cycle keeps its
completion, an IDLE port stays IDLE. -/
def portAtInternalReset (p : Port) : Port :=
  match p.state, p.cycle with
  | .holding, some c =>
    { state := .done, holdTimer := none,
      cycle := some { c with
        wait := .none
        outcome := some { fault := true, data := if c.kind = .read then some 0xFFFF#16 else none } } }
  | _, _ => p

/-- What an internal reset sets every block to, before the mount begins (R161). -/
def resetBlocks (s : State) : State :=
  let f := interruptFlash s
  { State.reset with
    pins := s.pins
    service := { State.reset.service with strap := s.pins.banks }
    port := portAtInternalReset s.port
    mgmt := { Mgmt.reset with params := s.mgmt.params, alertMask := s.mgmt.alertMask, receiver := s.mgmt.receiver }
    flashA := f.flashA
    flashB := f.flashB
    now := s.now
    freeNext := f.freeNext
    pending := s.pending }

/-- The internal reset (R161): the blocks take their reset values, the parameters and the alert mask stay, and the
mount begins at once. -/
def internalReset (s : State) : State := beginMount (resetBlocks s)

/-! ## Drains (R154, R155, R160) -/

/-- Steps 1 to 4 of R154: the state becomes DRAINING with return state ACTIVE, the GATHERING entries close, a held
write is refused, and reserve hold clears. -/
def startDrain (s : State) : State :=
  (refuseHeld (closeAll (setReturn (some .active) (s.setService .draining)))).setReserveHold false

/-- A drain ends, by the row of R155 that applies. -/
def completeDrain (s : State) : State :=
  if s.pins.pfail then assertLine (s.setService .drained)
  else if s.drain.restartPending then internalReset s
  else enterActive (setReturn none s)

/-- The drain ends if the condition it waits for holds (R155). -/
def testDrain (s : State) : State := if s.drainReady then completeDrain s else s

/-- Set restart-pending (R160). -/
def setRestart (s : State) : State := { s with drain := { s.drain with restartPending := true } }

/-! ## PFAIL at the bank controllers (R111, R112) -/

/-- Set the power hold of the erase context (R111, R112). -/
def setPowerHold (hold : Bool) (bk : BankId) (s : State) : State :=
  let k := s.bank bk
  s.setBank bk { k with context := k.context.map fun c => { c with powerHold := hold } }

/-- PFAIL becomes asserted at a bank controller (R111). -/
def holdBank (bk : BankId) (s : State) : State :=
  match (s.bank bk).state with
  | .erase => requestSuspend bk .power true s
  | .suspending => setPowerHold true bk s
  | .suspended => setPowerHold true bk s
  | .idle => s
  | .read => s
  | .program => s
  | .resetting => s

/-- PFAIL becomes asserted at both bank controllers. -/
def holdBanks (s : State) : State := holdBank .b (holdBank .a s)

/-- PFAIL is released at both bank controllers: the power holds clear (R112); each bank's next choice is made at the
end of the step. -/
def releaseBanks (s : State) : State := setPowerHold false .b (setPowerHold false .a s)

/-! ## PFAIL at drain control (R154 to R159) -/

/-- The PFAIL pin takes a level. -/
def setPfail (level : Bool) (s : State) : State := { s with pins := { s.pins with pfail := level } }

/-- PFAIL asserted, at drain control and the volume engine (R149, R154, R157, R158). DESIGN CHOICE (log 33): in
UNFORMATTED the line rises at once, as R158 says, even where a program of an abandoned format has not ended. -/
def pfailAtDrain (s : State) : State :=
  match s.service.state with
  | .mounting => s
  | .unformatted => assertLine (setReturn (some .unformatted) (s.setService .drained))
  | .formatting => abandonFormat s
  | .active => startDrain s
  | .draining => s
  | .drained => s

/-- PFAIL released, at drain control (R156): the DRAINED line falls, and a DRAINED part returns, or makes the internal
reset. -/
def releaseAtDrain (s : State) : State :=
  let s1 := dropLine s
  match s1.service.state with
  | .drained =>
    if s1.drain.restartPending then internalReset s1
    else
      match s1.drain.returnState with
      | some .active => enterActive (setReturn none s1)
      | some .unformatted => setReturn none (s1.setService .unformatted)
      | none => s1
  | .draining => serveErases s1
  | .mounting => s1
  | .unformatted => s1
  | .formatting => s1
  | .active => serveErases s1

end Sys2Proof.Machine
end

