-- ==== Sys2Proof/WellFormed.lean ====
section
/-! DEFINITION. Which commands are well formed. Operand ranges that a bounded type already gives (a bank letter, a
staging entry number, an address, a 16-bit argument) need no check. `exec` gives every command a meaning, well
formed or not; a command that is not well formed is one no part of the system can send. -/

namespace Sys2Proof

/-- A read answer gives no more bytes than the longest array read, one slot (R100). -/
def ReadAnswer.wf : ReadAnswer → Bool
  | .array => true
  | .other bytes => bytes.length ≤ 512

/-- The command byte names a command: 01h to 0Fh (R166). -/
def knownCode (code : Byte) : Bool := 1 ≤ code.toNat && code.toNat ≤ 15

/-- A command that can be sent: an unknown command byte is outside 01h to 0Fh (R166), and a read answer fits the
longest read (R100). -/
def Instr.wf : Instr → Bool
  | .unknownCommand code => !knownCode code
  | .arrayReadDone _ answer => answer.wf
  | _ => true

end Sys2Proof
end

