-- ==== Sys2Proof/Machine/Management.lean ====
section
/-! DEFINITION. The management port (spec 09; R163 to R182): responses, what each command does at its taking, and the
frame receiver. -/

namespace Sys2Proof.Machine

/-! ## Results and codes (R166, spec 10 11.6) -/

/-- What a command does at its taking: the response, result byte first, and the part after it (R164). -/
abbrev Taken := List Byte × State

/-- Result OK with response data. -/
def resOk (bytes : List Byte) : List Byte := 0x00#8 :: bytes
/-- Result BUSY. -/
def resBusy : List Byte := [0x01#8]
/-- Result BAD ARG. -/
def resBadArg : List Byte := [0x02#8]
/-- Result UNKNOWN. -/
def resUnknown : List Byte := [0x03#8]

/-- Service state codes. -/
def ServiceState.code : ServiceState → Byte
  | .mounting => 0
  | .unformatted => 1
  | .formatting => 2
  | .active => 3
  | .draining => 4
  | .drained => 5

/-- Reclaim kind codes. -/
def ReclaimKind.code : ReclaimKind → Byte
  | .none => 0
  | .space => 1
  | .levelling => 2
  | .condemned => 3

/-- Bank state codes. -/
def BankState.code : BankState → BitVec 4
  | .idle => 0
  | .read => 1
  | .program => 2
  | .erase => 3
  | .suspending => 4
  | .suspended => 5
  | .resetting => 6

/-- Block state codes. -/
def BlockState.code : BlockState → Byte
  | .free => 0
  | .opened => 1
  | .full => 2
  | .victim => 3
  | .pendingErase => 4
  | .erasing => 5
  | .retired => 6

/-- A block reference in one byte, FFh for none. -/
def refByte : Option BlockRef → Byte
  | some b => byteOf b.val
  | none => 0xFF#8

/-- STATUS byte 1: the latch's causes. -/
def Latch.byte (l : Latch) : Byte :=
  (if l.capacity then 1#8 else 0#8) ||| (if l.commitStuck then 2#8 else 0#8) ||| (if l.reclaimHalted then 4#8 else 0#8)

/-- STATUS byte 11: bank A's state and bank B's, Fh when the strap selects one bank (R95, R182). -/
def State.bankStates (s : State) : Byte :=
  s.bankA.state.code ++ (if strapPresent s.service.strap .b then s.bankB.state.code else 0xF#4)

/-- The 16 bytes of STATUS (R169, R182). -/
def State.statusBytes (s : State) : List Byte :=
  [ s.service.state.code, s.service.latch.byte, byteOf s.freeCount, byteOf s.blocks.eraseQueue.length,
    byteOf (s.countEntries fun e => e.state == .gathering), byteOf (s.countEntries fun e => e.state == .closed),
    byteOf (s.countEntries fun e => e.state == .committing), byteOf (s.countEntries fun e => e.state == .stuck),
    byteOf s.retiredCount, s.blocks.reclaim.code, refByte s.blocks.victim, s.bankStates ] ++
  bytesBE16 s.capacity ++
  [ refByte (s.blocks.openBlock.map Prod.fst),
    match s.blocks.openBlock with
    | some (_, n) => byteOf n
    | none => 0x00#8 ]

/-- The eight bytes of QUERY PAGE (R170). -/
def State.pageBytes (s : State) (page : Nat) : List Byte :=
  let count := fun (st : EntryState) => byteOf (s.countEntries fun e => e.state == st && e.page == some page)
  (match s.mapped page with
    | some m => [byteOf m.slot.block.val, byteOf m.slot.slot.val] ++ bytesBE16 m.version.toNat
    | none => [0xFF#8, 0x00#8, 0x00#8, 0x00#8]) ++
  [count .gathering, count .closed, count .committing, count .stuck]

/-- The seven bytes of QUERY BLOCK; FFh and zeros when no record is held (R171, R182). -/
def State.blockBytes (s : State) (b : BlockRef) : List Byte :=
  match s.record b with
  | some r =>
    [ r.state.code, byteOf (r.eraseCount / 65536), byteOf (r.eraseCount / 256), byteOf r.eraseCount,
      byteOf r.claimed, byteOf r.live, if r.condemned then 1#8 else 0#8 ]
  | none => [0xFF#8, 0, 0, 0, 0, 0, 0]

/-! ## What each command does at its taking (R168 to R180) -/

/-- IDENTIFY (R169). -/
def takeIdentify (s : State) : Taken := (resOk (bytesBE16 Config.partCode ++ bytesBE16 Config.partRevision), s)

/-- STATUS (R169). -/
def takeStatus (s : State) : Taken := (resOk s.statusBytes, s)

/-- READ FLAGS; bits 14 and 15 read 0 (R177, R182). -/
def takeReadFlags (s : State) : Taken := (resOk (argWord (s.mgmt.flags &&& flagBits)), s)

/-- CLEAR FLAGS (R177). -/
def takeClearFlags (mask : BitVec 16) (s : State) : Taken :=
  (resOk [], { s with mgmt := { s.mgmt with flags := s.mgmt.flags &&& ~~~mask } })

/-- SET ALERT MASK (R178). -/
def takeSetAlertMask (mask : BitVec 16) (s : State) : Taken :=
  (resOk [], { s with mgmt := { s.mgmt with alertMask := mask } })

/-- READ PARAM (R174). -/
def takeReadParam (id : Byte) (s : State) : Taken :=
  match s.mgmt.params.get id.toNat with
  | some v => (resOk (bytesBE16 v), s)
  | none => (resBadArg, s)

/-- The parameter with an id takes a value. -/
def setParam (id v : Nat) (s : State) : State :=
  { s with mgmt := { s.mgmt with params := s.mgmt.params.put id v } }

/-- WRITE PARAM (R174); of the reclaim threshold and the wear limit it is a trigger evaluation too (R91). -/
def takeWriteParam (id : Byte) (value : BitVec 16) (s : State) : Taken :=
  if paramAdmits id.toNat value.toNat then
    let s1 := setParam id.toNat value.toNat s
    (resOk [], if id = 5#8 ∨ id = 6#8 then settle (evaluateTriggers s1) else s1)
  else (resBadArg, s)

/-- FLUSH: admitted in ACTIVE (R44, R168). -/
def takeFlush (s : State) : Taken :=
  if s.service.state = .active then (resOk [], settle (flushStaging s)) else (resBusy, s)

/-- RESUME COMMIT's effect (R41, R69). -/
def resumeCommit (s : State) : State :=
  let s1 := resumeEntry s
  ({ s1 with service := { s1.service with latch := { s1.service.latch with commitStuck := false } } }).setReserveHold
    false

/-- RESUME COMMIT: admitted in ACTIVE with COMMIT STUCK present (R69, R168). -/
def takeResumeCommit (s : State) : Taken :=
  if s.service.state = .active ∧ s.service.latch.commitStuck = true then (resOk [], settle (resumeCommit s))
  else (resBusy, s)

/-- FORMAT is admitted: UNFORMATTED, or ACTIVE with every entry EMPTY and the mover idle (R144, R168). -/
def State.formatAdmitted (s : State) : Bool :=
  s.service.state == .unformatted ||
    (s.service.state == .active && s.countEntries (fun e => e.state != .empty) == 0 && s.moverIdle)

/-- FORMAT (R144). -/
def takeFormatCommand (pages : BitVec 16) (s : State) : Taken :=
  if !s.formatAdmitted then (resBusy, s)
  else if strapAdmits s.service.strap pages.toNat then (resOk [], takeFormat pages.toNat s)
  else (resBadArg, s)

/-- RESTART (R160). In DRAINING the condition of R155's row is tested at once; a restart drain begun in ACTIVE ends at
its own DRAIN_FINISH (log 4). -/
def takeRestart (s : State) : Taken :=
  match s.service.state with
  | .active => (resOk [], settle (startDrain (setRestart s)))
  | .unformatted => (resOk [], internalReset s)
  | .draining => (resOk [], testDrain (setRestart s))
  | .drained => (resOk [], setRestart s)
  | .mounting => (resBusy, s)
  | .formatting => (resBusy, s)

/-- QUERY PAGE (R168, R170). -/
def takeQueryPage (lpn : BitVec 16) (s : State) : Taken :=
  if !s.volumeMounted then (resBusy, s)
  else if s.capacity ≤ lpn.toNat then (resBadArg, s)
  else (resOk (s.pageBytes lpn.toNat), s)

/-- The data block that a bank byte and an index byte name under a strap (R168). -/
def blockNamed (strap : Strap) (bank index : Byte) : Option BlockRef :=
  if 63 < index.toNat then none
  else if bank = 0#8 then if index = 0#8 then none else some (Fin.ofNat 128 index.toNat)
  else if bank = 1#8 then if strapPresent strap .b then some (Fin.ofNat 128 (64 + index.toNat)) else none
  else none

/-- QUERY BLOCK (R168, R171). -/
def takeQueryBlock (bank index : Byte) (s : State) : Taken :=
  if s.service.state = .formatting then (resBusy, s)
  else
    match blockNamed s.service.strap bank index with
    | some b => (resOk (s.blockBytes b), s)
    | none => (resBadArg, s)

/-- READ COUNTER (R180). -/
def takeReadCounter (id : Byte) (s : State) : Taken :=
  if h : id.toNat < 10 then
    let c := s.mgmt.counters[id.toNat]
    (resOk [(c >>> 24).setWidth 8, (c >>> 16).setWidth 8, (c >>> 8).setWidth 8, c.setWidth 8], s)
  else (resBadArg, s)

/-- CLEAR COUNTERS (R180). -/
def takeClearCounters (s : State) : Taken :=
  (resOk [], { s with mgmt := { s.mgmt with counters := Vector.replicate 10 0 } })

/-- The command that a known code and its argument bytes name, at its taking (R164); an argument that is not there
reads 00h. -/
def takeCommand (code : Byte) (args : List Byte) (s : State) : Taken :=
  let a := args.getD 0 0#8
  let b := args.getD 1 0#8
  let c := args.getD 2 0#8
  match code.toNat with
  | 1 => takeIdentify s
  | 2 => takeStatus s
  | 3 => takeReadFlags s
  | 4 => takeClearFlags (wordBE a b) s
  | 5 => takeSetAlertMask (wordBE a b) s
  | 6 => takeReadParam a s
  | 7 => takeWriteParam a (wordBE b c) s
  | 8 => takeFlush s
  | 9 => takeResumeCommit s
  | 10 => takeFormatCommand (wordBE a b) s
  | 11 => takeRestart s
  | 12 => takeQueryPage (wordBE a b) s
  | 13 => takeQueryBlock a b s
  | 14 => takeReadCounter a s
  | 15 => takeClearCounters s
  | _ => (resUnknown, s)

/-! ## The frame receiver (R163 to R167) -/

/-- Replace the receiver. -/
def State.setReceiver (s : State) (r : Receiver) : State := { s with mgmt := { s.mgmt with receiver := r } }

/-- The receiver enters RESPONSE with a captured response (R163, R164). -/
def capture (code : Byte) (args : List Byte) (t : Taken) : State :=
  t.2.setReceiver
    { state := .response, bits := [], cmd := some code, args := args, response := t.1, shifted := 0 }

/-- The bits of the frame that the receiver has sampled, command byte first. -/
def Receiver.sampled (r : Receiver) : List Bool :=
  (match r.cmd with
    | some c => bitsOf c
    | none => []) ++ r.args.flatMap bitsOf ++ r.bits

/-- The receiver is taking the bytes of a frame (R163). -/
def Receiver.receiving (r : Receiver) : Bool := r.state == .command || r.state == .arguments

/-- The rest of a frame is clocked in, up to the taking of its command: possible when a frame is in progress and what
the receiver has sampled begins that frame (log 12). -/
def takeFrame (code : Byte) (args : List Byte) (body : State → Taken) (s : State) : State :=
  let r := s.mgmt.receiver
  if r.receiving && r.sampled.isPrefixOf (bitsOf code ++ args.flatMap bitsOf) then capture code args (body s) else s

/-- SSEL is asserted: a frame starts if the receiver is IDLE and RESET is not asserted (R163, R167). -/
def startFrame (s : State) : State :=
  if s.pins.ssel then s
  else
    let s1 := { s with pins := { s.pins with ssel := true } }
    if s1.port.state = .inReset then s1
    else if s1.mgmt.receiver.state = .idle then s1.setReceiver { Receiver.reset with state := .command }
    else s1

/-- The frame that SSEL's deassertion ends now is discarded with FRAME ERROR (R165). -/
def Receiver.discards (r : Receiver) : Bool :=
  (r.state == .command && !r.bits.isEmpty) || r.state == .arguments

/-- SSEL is deasserted (R165). -/
def endFrame (s : State) : State :=
  let s1 := { s with pins := { s.pins with ssel := false } }
  let s2 := if s.mgmt.receiver.discards then s1.setFlag .frameError else s1
  s2.setReceiver .reset

/-- A command byte is complete (R163, R164, R166). -/
def commandByte (code : Byte) (s : State) : State :=
  if !knownCode code then capture code [] (resUnknown, s)
  else if argCount code = 0 then capture code [] (takeCommand code [] s)
  else s.setReceiver { Receiver.reset with state := .arguments, cmd := some code }

/-- An argument byte is complete (R163, R164). -/
def argumentByte (code : Byte) (args : List Byte) (s : State) : State :=
  if args.length = argCount code then capture code args (takeCommand code args s)
  else s.setReceiver { Receiver.reset with state := .arguments, cmd := some code, args := args }

/-- A rising edge of SCK (R163). In RESPONSE it reads out the bit that SDO presents. -/
def clockBit (sdi : Bool) (s : State) : State :=
  let r := s.mgmt.receiver
  let bits := r.bits ++ [sdi]
  match r.state with
  | .idle => s
  | .response => s.setReceiver { r with shifted := r.shifted + 1 }
  | .command =>
    if bits.length = 8 then commandByte (byteOfBits bits) s else s.setReceiver { r with bits := bits }
  | .arguments =>
    if bits.length = 8 then
      match r.cmd with
      | some code => argumentByte code (r.args ++ [byteOfBits bits]) s
      | none => s.setReceiver { r with bits := bits }
    else s.setReceiver { r with bits := bits }

/-- The level SDO presents to the next rising edge of SCK: none is high impedance; zeros in COMMAND and ARGUMENTS and
after the response (R163, R182). -/
def State.sdo (s : State) : Option Bool :=
  let r := s.mgmt.receiver
  match r.state with
  | .idle => none
  | .command => some false
  | .arguments => some false
  | .response => some ((r.response.flatMap bitsOf).getD r.shifted false)

end Sys2Proof.Machine
end

