-- ==== Sys2Proof/Machine/Clock.lean ====
section
/-! DEFINITION. One microsecond: what runs down or accumulates while no command is taken (log 2). An expiry is an event
of its own and is not made here. -/

namespace Sys2Proof.Machine

/-- A running timer, one microsecond later. -/
def runDown (t : Option Nat) : Option Nat := t.map fun n => n - 1

/-- A staging entry's timers (R32, R33). -/
def tickEntry (e : Entry) : Entry := { e with idle := runDown e.idle, age := runDown e.age }

/-- The erase context: running time accumulates in ERASE and SUSPENDING, and the quantum timer runs in ERASE (R96,
R102, R103). -/
def tickContext (st : BankState) (c : EraseContext) : EraseContext :=
  { c with
    runningTime := if st = .erase ∨ st = .suspending then c.runningTime + 1 else c.runningTime
    quantumTimer := if st = .erase then runDown c.quantumTimer else c.quantumTimer }

/-- A bank controller's timers. -/
def tickBank (k : BankCtl) : BankCtl :=
  { k with
    context := k.context.map (tickContext k.state)
    programTimer := runDown k.programTimer
    suspendTimer := runDown k.suspendTimer
    resetTimer := runDown k.resetTimer }

/-- One microsecond passes. -/
def tick (s : State) : State :=
  { s with
    now := s.now + 1
    port := { s.port with holdTimer := runDown s.port.holdTimer }
    staging := { s.staging with entries := s.staging.entries.map tickEntry }
    bankA := tickBank s.bankA
    bankB := tickBank s.bankB }

end Sys2Proof.Machine
end

