-- ==== Sys2Proof/Machine/Commands.lean ====
section
/-! DEFINITION. The management commands of R164, one definition each: the rest of the command's frame is clocked in and
the command is taken (log 12). -/

namespace Sys2Proof.Machine

/-- IDENTIFY (R169). -/
def execIdentify (s : State) : Host.Outcome State Fault Refusal :=
  .next (takeFrame 0x01#8 [] takeIdentify s)

/-- STATUS (R169). -/
def execStatus (s : State) : Host.Outcome State Fault Refusal :=
  .next (takeFrame 0x02#8 [] takeStatus s)

/-- READ_FLAGS (R177). -/
def execReadFlags (s : State) : Host.Outcome State Fault Refusal :=
  .next (takeFrame 0x03#8 [] takeReadFlags s)

/-- CLEAR_FLAGS (R177). -/
def execClearFlags (mask : BitVec 16) (s : State) : Host.Outcome State Fault Refusal :=
  .next (takeFrame 0x04#8 (argWord mask) (takeClearFlags mask) s)

/-- SET_ALERT_MASK (R178). -/
def execSetAlertMask (mask : BitVec 16) (s : State) : Host.Outcome State Fault Refusal :=
  .next (takeFrame 0x05#8 (argWord mask) (takeSetAlertMask mask) s)

/-- READ_PARAM (R174). -/
def execReadParam (id : Byte) (s : State) : Host.Outcome State Fault Refusal :=
  .next (takeFrame 0x06#8 [id] (takeReadParam id) s)

/-- WRITE_PARAM (R91, R174). -/
def execWriteParam (id : Byte) (value : BitVec 16) (s : State) : Host.Outcome State Fault Refusal :=
  .next (takeFrame 0x07#8 (id :: argWord value) (takeWriteParam id value) s)

/-- FLUSH (R44, R172). -/
def execFlush (s : State) : Host.Outcome State Fault Refusal :=
  .next (takeFrame 0x08#8 [] takeFlush s)

/-- RESUME_COMMIT (R69, R172). -/
def execResumeCommit (s : State) : Host.Outcome State Fault Refusal :=
  .next (takeFrame 0x09#8 [] takeResumeCommit s)

/-- FORMAT (R144, R172). -/
def execFormat (pages : BitVec 16) (s : State) : Host.Outcome State Fault Refusal :=
  .next (takeFrame 0x0A#8 (argWord pages) (takeFormatCommand pages) s)

/-- RESTART (R160, R172). -/
def execRestart (s : State) : Host.Outcome State Fault Refusal :=
  .next (takeFrame 0x0B#8 [] takeRestart s)

/-- QUERY_PAGE (R170). -/
def execQueryPage (lpn : BitVec 16) (s : State) : Host.Outcome State Fault Refusal :=
  .next (takeFrame 0x0C#8 (argWord lpn) (takeQueryPage lpn) s)

/-- QUERY_BLOCK (R171). -/
def execQueryBlock (bank index : Byte) (s : State) : Host.Outcome State Fault Refusal :=
  .next (takeFrame 0x0D#8 [bank, index] (takeQueryBlock bank index) s)

/-- READ_COUNTER (R180). -/
def execReadCounter (id : Byte) (s : State) : Host.Outcome State Fault Refusal :=
  .next (takeFrame 0x0E#8 [id] (takeReadCounter id) s)

/-- CLEAR_COUNTERS (R180). -/
def execClearCounters (s : State) : Host.Outcome State Fault Refusal :=
  .next (takeFrame 0x0F#8 [] takeClearCounters s)

end Sys2Proof.Machine
end

