-- ==== Sys2Proof/Machine/FlashEvents.lean ====
section
/-! DEFINITION. The commands that are a flash bank's answers and a bank controller's timers (spec 05). Each completion
is reported to its requester, and the bank then makes its next choice. -/

namespace Sys2Proof.Machine

/-! ## Array reads (R100) -/

/-- The bytes a read answer gives: the array's, or the listed ones with FFh beyond them (log 6). -/
def answerBytes (answer : ReadAnswer) (f : Flash) (slot : SlotRef) (offset len : Nat) : List Byte :=
  match answer with
  | .array => f.bytes slot offset len
  | .other bytes => (List.range len).map fun i => byteAt bytes i

/-- Report an array read's bytes to the requester of a class; the slot is already empty. -/
def reportRead (bk : BankId) (c : ReqClass) (bytes : List Byte) (s : State) : State :=
  match c with
  | .host => hostReadDone bk bytes s
  | .mover => moverReadDone bytes s
  | .descriptor => s
  | .volume => volumeReadDone bk bytes s

/-- Empty the slot of a class (R97). -/
def emptySlot (bk : BankId) (c : ReqClass) (s : State) : State := s.setBank bk ((s.bank bk).setSlot c none)

/-- Replace the operation of the request in the slot of a class; it keeps its moment (R181). -/
def replaceOp (bk : BankId) (c : ReqClass) (r : Request) (op : ReqOp) (s : State) : State :=
  s.setBank bk ((s.bank bk).setSlot c (some { r with op := op }))

/-- An array read has returned its bytes: RETIRED goes on to its halfwords (R181); any other read is reported. -/
def finishRead (bk : BankId) (c : ReqClass) (bytes : List Byte) (s : State) : State :=
  match (s.bank bk).slot c with
  | some r =>
    match r.op with
    | .descriptor b (.retired n) .read =>
      endAction bk (replaceOp bk c r (.descriptor b (.retired n) (retiredStep n bytes)) s)
    | _ => endAction bk (reportRead bk c bytes (emptySlot bk c s))
  | none => endAction bk (reportRead bk c bytes (emptySlot bk c s))

/-- After a report the banks make their choices; a report to the page mover may let the arbiter grant first. -/
def afterRead (c : ReqClass) (s : State) : State := if c = .mover then settle s else kickBanks s

/-- ARRAY_READ_DONE: a bank returns the data of the array read in progress (R100). -/
def execArrayReadDone (bank : BankId) (answer : ReadAnswer) (s : State) : Host.Outcome State Fault Refusal :=
  match (s.bank bank).active with
  | some { cls := c, act := .read slot offset len } =>
    .next (afterRead c (finishRead bank c (answerBytes answer (s.flash bank) slot offset len) s))
  | _ => .next s

/-! ## Programs (R101, R109, R181) -/

/-- Replace the action in progress and stop the program timer. -/
def setAction (bk : BankId) (a : Active) (s : State) : State :=
  s.setBank bk { s.bank bk with active := some a, programTimer := none }

/-- PROGRAM_END: the program timer stops and the verify read begins (R101). -/
def execProgramEnd (bank : BankId) (s : State) : Host.Outcome State Fault Refusal :=
  match (s.bank bank).active with
  | some { cls := c, act := .program slot h v } => .next (setAction bank { cls := c, act := .verify slot h v } s)
  | _ => .next s

/-- Report a descriptor program's result to its requester (R22, R87, R88, R146). -/
def reportDescriptor (bk : BankId) (c : ReqClass) (b : BlockRef) (prog : DescProgram) (pass : Bool) (s : State) :
    State :=
  match c with
  | .host => s
  | .mover => inUseDone b pass s
  | .descriptor => takeDescriptorResult b prog pass s
  | .volume => volumeProgramDone bk pass s

/-- Report a program's result to its requester. -/
def reportProgram (bk : BankId) (c : ReqClass) (pass : Bool) (s : State) : State :=
  match c with
  | .host => s
  | .mover => moverProgramDone pass s
  | .descriptor => s
  | .volume => volumeProgramDone bk pass s

/-- A halfword program has a result: a fail is counted (R48, R179; log 17), a descriptor program goes on to its next
halfword after a pass (R181), and the result is reported otherwise. -/
def finishProgram (bk : BankId) (c : ReqClass) (pass : Bool) (s : State) : State :=
  let s1 := s.bumpIf (!pass) .programFailures
  match (s.bank bk).slot c with
  | some r =>
    match r.op, pass with
    | .descriptor b prog (.write _ _ ((h, v) :: rest)), true =>
      replaceOp bk c r (.descriptor b prog (.write h v rest)) s1
    | .descriptor b prog _, _ => reportDescriptor bk c b prog pass (emptySlot bk c s1)
    | _, _ => reportProgram bk c pass (emptySlot bk c s1)
  | none => s1

/-- The halfword that the array holds after a program whose verify read returned a value: a program never sets a bit
(R101; log 7). -/
def verifiedHalf (old value : HalfWord) : HalfWord := old &&& value

/-- The halfword of a slot in the array of a bank takes a value. -/
def setHalf (bk : BankId) (slot : SlotRef) (h : Fin 256) (v : HalfWord) (s : State) : State :=
  s.setFlash bk ((s.flash bk).writeHalf slot h v)

/-- The verify read finds the value intended: it returns that value, and the value sets no bit that the array held at 0
(R101: such a program fails). -/
def verifyPasses (old v value : HalfWord) : Bool := value == v && old &&& v == v

/-- PROGRAM_VERIFY_DONE: the verify read returns a halfword; pass when it equals the value intended (R101). -/
def execProgramVerifyDone (bank : BankId) (value : HalfWord) (s : State) : Host.Outcome State Fault Refusal :=
  match (s.bank bank).active with
  | some { cls := c, act := .verify slot h v } =>
    let old := (s.flash bank).half slot h
    .next (settle (endAction bank (finishProgram bank c (verifyPasses old v value)
      (setHalf bank slot h (verifiedHalf old value) s))))
  | _ => .next s

/-! ## Erases (R102, R105, R108, R109) -/

/-- Report an erase's result to its requester (R86, R145, R146). -/
def reportErase (bk : BankId) (c : EraseContext) (pass : Bool) (s : State) : State :=
  match c.requester with
  | .blockManager => takeEraseResult c.block pass s
  | .volumeEngine => takeVolumeErase bk pass s

/-- The erase in progress ends with a result: the context is cleared and the result is reported. -/
def finishErase (bk : BankId) (pass : Bool) (s : State) : State :=
  match (s.bank bk).context with
  | some c => reportErase bk c pass (endErase bk pass s)
  | none => s

/-- The bank becomes IDLE. -/
def idleBank (bk : BankId) (s : State) : State := s.setBank bk { s.bank bk with state := .idle }

/-- The flash reports erase complete: the erase running on the bank ends (R102, R105); a bank in any other state has no
erase that can complete, and the report is ignored (R105, R108, R109). -/
def completeErase (bk : BankId) (pass : Bool) (s : State) : State :=
  if (s.bank bk).eraseRunning then kickBanks (finishErase bk pass (idleBank bk s)) else s

/-- ERASE_COMPLETE: in ERASE (R102). The flash's report is one event, whatever the bank's state (log 11). -/
def execEraseComplete (bank : BankId) (pass : Bool) (s : State) : Host.Outcome State Fault Refusal :=
  .next (completeErase bank pass s)

/-- ERASE_COMPLETE_IN_SUSPENDING: in SUSPENDING the erase ends in the same way (R105; log 11). -/
def execEraseCompleteInSuspending (bank : BankId) (pass : Bool) (s : State) : Host.Outcome State Fault Refusal :=
  .next (completeErase bank pass s)

/-- The suspend count after an acknowledgement: one more for a suspend with cause READ (R104). -/
def EraseContext.acknowledged (c : EraseContext) : EraseContext :=
  { c with suspendCount := if c.cause = .read then c.suspendCount + 1 else c.suspendCount }

/-- The bank becomes SUSPENDED (R104). -/
def suspendBank (bk : BankId) (s : State) : State :=
  let k := s.bank bk
  (s.setBank bk { k with
    state := .suspended, suspendTimer := none, context := k.context.map EraseContext.acknowledged }).bump
    .eraseSuspends

/-- SUSPEND_ACKNOWLEDGED: in SUSPENDING the bank becomes SUSPENDED and serves its reads or resumes (R104, R106); in any
other state it is ignored (R105). -/
def execSuspendAcknowledged (bank : BankId) (s : State) : Host.Outcome State Fault Refusal :=
  .next (if (s.bank bank).state = .suspending then kickBank bank (suspendBank bank s) else s)

/-! ## Timers (R103, R108, R109, R110) -/

/-- The quantum timer has run out (R103). -/
def stopQuantum (bk : BankId) (s : State) : State :=
  let k := s.bank bk
  s.setBank bk { k with context := k.context.map fun c => { c with quantumTimer := none } }

/-- QUANTUM_TIMER_EXPIRY: acted on only in ERASE; a suspend is requested if a read waits and the limit allows (R103). -/
def execQuantumTimerExpiry (bank : BankId) (s : State) : Host.Outcome State Fault Refusal :=
  .next (if (s.bank bank).state = .erase then kickBank bank (stopQuantum bank s) else s)

/-- PROGRAM_TIMEOUT: the program in progress fails before its end; in SUSPENDED the erase ends with fail too; a bank
reset begins (R109, R111). -/
def execProgramTimeout (bank : BankId) (s : State) : Host.Outcome State Fault Refusal :=
  match (s.bank bank).active with
  | some { cls := c, act := .program slot h v } =>
    let s1 := finishProgram bank c false (halfDone bank c true slot h v s)
    .next (settle (beginBankReset bank (if (s.bank bank).state = .suspended then finishErase bank false s1 else s1)))
  | _ => .next s

/-- A running erase ends with fail and a bank reset begins (R108, R109). -/
def failErase (bk : BankId) (s : State) : State := kickBanks (beginBankReset bk (finishErase bk false s))

/-- SUSPEND_ACK_TIMEOUT: in SUSPENDING the erase ends with fail (R109). -/
def execSuspendAckTimeout (bank : BankId) (s : State) : Host.Outcome State Fault Refusal :=
  .next (if (s.bank bank).state = .suspending then failErase bank s else s)

/-- ERASE_TIMEOUT: in ERASE or SUSPENDING the erase ends with fail (R108). -/
def execEraseTimeout (bank : BankId) (s : State) : Host.Outcome State Fault Refusal :=
  .next (if (s.bank bank).eraseRunning then failErase bank s else s)

/-- A bank reset ends: the bank is IDLE, and a mount's start goes on (R110, R135). -/
def endBankReset (bk : BankId) (s : State) : State :=
  kickBanks (volumeResetDone bk (s.setBank bk { s.bank bk with state := .idle, resetTimer := none }))

/-- BANK_RESET_COMPLETE: the flash reports the bank reset complete; ignored when none is in progress (R110). -/
def execBankResetComplete (bank : BankId) (s : State) : Host.Outcome State Fault Refusal :=
  .next (if (s.bank bank).state = .resetting then endBankReset bank s else s)

/-- BANK_RESET_TIMER_EXPIRY: the bank reset ends at its timer (R110). -/
def execBankResetTimerExpiry (bank : BankId) (s : State) : Host.Outcome State Fault Refusal :=
  .next (if (s.bank bank).state = .resetting then endBankReset bank s else s)

end Sys2Proof.Machine
end

