-- ==== Sys2Proof/Machine/Frames.lean ====
section
/-! DEFINITION. The commands of the frame itself: FRAME_START, FRAME_END, UNKNOWN_COMMAND and SCK_RISING_EDGE. -/

namespace Sys2Proof.Machine

/-- FRAME_START: SSEL is asserted (R163, R167). -/
def execFrameStart (s : State) : Host.Outcome State Fault Refusal := .next (startFrame s)

/-- FRAME_END: SSEL is deasserted (R165). -/
def execFrameEnd (s : State) : Host.Outcome State Fault Refusal := .next (endFrame s)

/-- UNKNOWN_COMMAND: the rest of a command byte that names no command is clocked in; result UNKNOWN and nothing else
(R166). A code that names a command is not this event (log 10). -/
def execUnknownCommand (code : Byte) (s : State) : Host.Outcome State Fault Refusal :=
  .next (if knownCode code then s else takeFrame code [] (fun t => (resUnknown, t)) s)

/-- SCK_RISING_EDGE: SDI is sampled (R163); SCK is not counted in IDLE. -/
def execSckRisingEdge (sdi : Bool) (s : State) : Host.Outcome State Fault Refusal := .next (clockBit sdi s)

end Sys2Proof.Machine
end

