-- ==== Sys2Proof/Machine/HostCycles.lean ====
section
/-! DEFINITION. The commands of the host bus: HOST_READ_ARRIVAL, HOST_WRITE_ARRIVAL, CYCLE_BOTH_STROBES, CYCLE_END and
CYCLE_ABANDONED. -/

namespace Sys2Proof.Machine

/-- HOST_READ_ARRIVAL: chip select and the read strobe are asserted (R115, R117, R121). -/
def execHostReadArrival (addr : BitVec 22) (lower upper : Bool) (s : State) : Host.Outcome State Fault Refusal :=
  .next (assertStrobes (.read addr lower upper) s)

/-- HOST_WRITE_ARRIVAL: chip select and the write strobe are asserted (R115, R117, R120). -/
def execHostWriteArrival (addr : BitVec 22) (lower upper : Bool) (data : HalfWord) (s : State) :
    Host.Outcome State Fault Refusal :=
  .next (assertStrobes (.write addr lower upper data) s)

/-- CYCLE_BOTH_STROBES: chip select is asserted with both strobes; FAULT at once and nothing else (R115). -/
def execCycleBothStrobes (addr : BitVec 22) (lower upper : Bool) (s : State) : Host.Outcome State Fault Refusal :=
  .next (assertStrobes (.both addr lower upper) s)

/-- CYCLE_END: the host withdraws the strobes; a DONE cycle ends (R116). The withdrawal is one event of the bus,
whatever the port's state (log 11). -/
def execCycleEnd (s : State) : Host.Outcome State Fault Refusal := .next (withdrawStrobes s)

/-- CYCLE_ABANDONED: the host withdraws the strobes; a HOLDING cycle is abandoned (R125; log 11). -/
def execCycleAbandoned (s : State) : Host.Outcome State Fault Refusal := .next (withdrawStrobes s)

end Sys2Proof.Machine
end

