-- ==== Sys2Proof/Machine/PowerReset.lean ====
section
/-! DEFINITION. The commands POWER_ON, RESET_ASSERTED and RESET_RELEASED. -/

namespace Sys2Proof.Machine

/-- POWER_ON: taken as a pin reset, with the BANKS pin at this level (R127, R129, R162); RESET stays asserted until
RESET_RELEASED (log 1). -/
def execPowerOn (banks : Strap) (s : State) : Host.Outcome State Fault Refusal := .next (pinReset banks s)

/-- RESET_ASSERTED: the pin reset (R127, R162). -/
def execResetAsserted (banks : Strap) (s : State) : Host.Outcome State Fault Refusal := .next (pinReset banks s)

/-- RESET is released: the port is IDLE and the mount begins; the strobes and lines that the pins hold
(which those are: log 32) are an arrival (R127, R135). -/
def releaseReset (s : State) : State :=
  arriveFromPins (beginMount { s with port := { state := .idle, holdTimer := none, cycle := none } })

/-- RESET_RELEASED: nothing when RESET is not asserted (log 10). -/
def execResetReleased (s : State) : Host.Outcome State Fault Refusal :=
  .next (if s.port.state = .inReset then releaseReset s else s)

end Sys2Proof.Machine
end

