-- ==== Sys2Proof/Machine/ServiceEvents.lean ====
section
/-! DEFINITION. The commands of PFAIL and the drain, of mount and of format. The conditions that the part itself waits
for are commands of their own (log 4): each acts when its condition holds. -/

namespace Sys2Proof.Machine

/-- PFAIL becomes asserted (R111, R154, R157 to R159): drain control and both bank controllers act, and a drain that is
done at the assertion finishes at once. -/
def assertPfail (s : State) : State := testDrain (settle (holdBanks (pfailAtDrain (setPfail true s))))

/-- PFAIL_ASSERTED: an assertion of a pin already asserted is no event (log 10). -/
def execPfailAsserted (s : State) : Host.Outcome State Fault Refusal :=
  .next (if s.pins.pfail then s else assertPfail s)

/-- PFAIL is released (R112, R156): both bank controllers and drain control act, and a DRAINING state's condition is
tested at once. -/
def releasePfail (s : State) : State := settle (testDrain (settle (releaseAtDrain (releaseBanks (setPfail false s)))))

/-- PFAIL_RELEASED. -/
def execPfailReleased (s : State) : Host.Outcome State Fault Refusal :=
  .next (if s.pins.pfail then releasePfail s else s)

/-- DRAIN_FINISH: the condition the DRAINING state waits for is true (R155). -/
def execDrainFinish (s : State) : Host.Outcome State Fault Refusal :=
  .next (if s.drainReady then settle (completeDrain s) else s)

/-- FORMAT_DRAINED_ASSERT: an abandoned format's banks are at rest with PFAIL asserted (R153, R159). -/
def execFormatDrainedAssert (s : State) : Host.Outcome State Fault Refusal :=
  .next (if s.formatAbandoned && s.pins.pfail && s.banksAtRest then assertLine s else s)

/-- FORMAT_ABANDON_END: PFAIL is released and no bank has an erase in progress (R149). DESIGN CHOICE (log 33): a program
not yet ended does not delay the end, since R149 names erases only, and goes on in UNFORMATTED. -/
def execFormatAbandonEnd (s : State) : Host.Outcome State Fault Refusal :=
  .next (if s.formatAbandoned && !s.pins.pfail && s.allBanks fun k => !k.eraseInProgress then failFormat s else s)

/-- MOUNT_CANDIDATE_CHOICE: the scans of both banks have ended (R139, R140). -/
def execMountCandidateChoice (s : State) : Host.Outcome State Fault Refusal :=
  .next (if s.choiceReady then kickBanks (chooseMount s) else s)

/-- MOUNT_END: the repairs of both banks have ended (R142). -/
def execMountEnd (s : State) : Host.Outcome State Fault Refusal :=
  .next (if s.mountReady then settle (endMount s) else s)

/-- FORMAT_BANK_START: the bank has no erase in progress and an empty erase slot (R145). -/
def execFormatBankStart (bank : BankId) (s : State) : Host.Outcome State Fault Refusal :=
  .next (if s.formatStartReady bank then kickBank bank (startFormatBank bank s) else s)

/-- FORMAT_VOLUME_RECORD: step 3 has ended on both banks (R146, R147). -/
def execFormatVolumeRecord (s : State) : Host.Outcome State Fault Refusal :=
  .next (if s.recordReady then kickBank .a (startRecord s) else s)

end Sys2Proof.Machine
end

