-- ==== Sys2Proof/Machine/TimerEvents.lean ====
section
/-! DEFINITION. The commands HOLD_TIMER_EXPIRY, IDLE_TIMER_EXPIRY and AGE_TIMER_EXPIRY. An expiry is taken when the
timer is running, whatever time remains of it (log 3). -/

namespace Sys2Proof.Machine

/-- HOLD_TIMER_EXPIRY: acted on while the port is HOLDING (R124). -/
def execHoldTimerExpiry (s : State) : Host.Outcome State Fault Refusal := .next (expireHold s)

/-- IDLE_TIMER_EXPIRY: the entry closes with cause idle, if it is GATHERING with its idle timer running (R32). -/
def execIdleTimerExpiry (entry : Fin 8) (s : State) : Host.Outcome State Fault Refusal :=
  .next (if (s.entry entry).idle.isSome then settle (closeEntry entry s) else s)

/-- AGE_TIMER_EXPIRY: the entry closes with cause age, if it is GATHERING with its age timer running (R33). -/
def execAgeTimerExpiry (entry : Fin 8) (s : State) : Host.Outcome State Fault Refusal :=
  .next (if (s.entry entry).age.isSome then settle (closeEntry entry s) else s)

end Sys2Proof.Machine
end

