-- ==== Sys2Proof/Machine/Dispatch.lean ====
section
/-! DEFINITION. One arm per command: its meaning. -/

namespace Sys2Proof.Machine

def exec (i : Instr) (s : State) : Host.Outcome State Fault Refusal :=
  match i with
  | .powerOn banks => Sys2Proof.Machine.execPowerOn banks s
  | .resetAsserted banks => Sys2Proof.Machine.execResetAsserted banks s
  | .resetReleased => Sys2Proof.Machine.execResetReleased s
  | .hostReadArrival addr lower upper => Sys2Proof.Machine.execHostReadArrival addr lower upper s
  | .hostWriteArrival addr lower upper data => Sys2Proof.Machine.execHostWriteArrival addr lower upper data s
  | .cycleBothStrobes addr lower upper => Sys2Proof.Machine.execCycleBothStrobes addr lower upper s
  | .cycleEnd => Sys2Proof.Machine.execCycleEnd s
  | .cycleAbandoned => Sys2Proof.Machine.execCycleAbandoned s
  | .holdTimerExpiry => Sys2Proof.Machine.execHoldTimerExpiry s
  | .idleTimerExpiry entry => Sys2Proof.Machine.execIdleTimerExpiry entry s
  | .ageTimerExpiry entry => Sys2Proof.Machine.execAgeTimerExpiry entry s
  | .arrayReadDone bank answer => Sys2Proof.Machine.execArrayReadDone bank answer s
  | .programEnd bank => Sys2Proof.Machine.execProgramEnd bank s
  | .programVerifyDone bank value => Sys2Proof.Machine.execProgramVerifyDone bank value s
  | .eraseComplete bank pass => Sys2Proof.Machine.execEraseComplete bank pass s
  | .eraseCompleteInSuspending bank pass => Sys2Proof.Machine.execEraseCompleteInSuspending bank pass s
  | .suspendAcknowledged bank => Sys2Proof.Machine.execSuspendAcknowledged bank s
  | .quantumTimerExpiry bank => Sys2Proof.Machine.execQuantumTimerExpiry bank s
  | .programTimeout bank => Sys2Proof.Machine.execProgramTimeout bank s
  | .suspendAckTimeout bank => Sys2Proof.Machine.execSuspendAckTimeout bank s
  | .eraseTimeout bank => Sys2Proof.Machine.execEraseTimeout bank s
  | .bankResetComplete bank => Sys2Proof.Machine.execBankResetComplete bank s
  | .bankResetTimerExpiry bank => Sys2Proof.Machine.execBankResetTimerExpiry bank s
  | .pfailAsserted => Sys2Proof.Machine.execPfailAsserted s
  | .pfailReleased => Sys2Proof.Machine.execPfailReleased s
  | .drainFinish => Sys2Proof.Machine.execDrainFinish s
  | .formatDrainedAssert => Sys2Proof.Machine.execFormatDrainedAssert s
  | .formatAbandonEnd => Sys2Proof.Machine.execFormatAbandonEnd s
  | .mountCandidateChoice => Sys2Proof.Machine.execMountCandidateChoice s
  | .mountEnd => Sys2Proof.Machine.execMountEnd s
  | .formatBankStart bank => Sys2Proof.Machine.execFormatBankStart bank s
  | .formatVolumeRecord => Sys2Proof.Machine.execFormatVolumeRecord s
  | .frameStart => Sys2Proof.Machine.execFrameStart s
  | .frameEnd => Sys2Proof.Machine.execFrameEnd s
  | .unknownCommand code => Sys2Proof.Machine.execUnknownCommand code s
  | .identify => Sys2Proof.Machine.execIdentify s
  | .status => Sys2Proof.Machine.execStatus s
  | .readFlags => Sys2Proof.Machine.execReadFlags s
  | .clearFlags mask => Sys2Proof.Machine.execClearFlags mask s
  | .setAlertMask mask => Sys2Proof.Machine.execSetAlertMask mask s
  | .readParam id => Sys2Proof.Machine.execReadParam id s
  | .writeParam id value => Sys2Proof.Machine.execWriteParam id value s
  | .flush => Sys2Proof.Machine.execFlush s
  | .resumeCommit => Sys2Proof.Machine.execResumeCommit s
  | .format pages => Sys2Proof.Machine.execFormat pages s
  | .restart => Sys2Proof.Machine.execRestart s
  | .queryPage lpn => Sys2Proof.Machine.execQueryPage lpn s
  | .queryBlock bank index => Sys2Proof.Machine.execQueryBlock bank index s
  | .readCounter id => Sys2Proof.Machine.execReadCounter id s
  | .clearCounters => Sys2Proof.Machine.execClearCounters s
  | .sckRisingEdge sdi => Sys2Proof.Machine.execSckRisingEdge sdi s

end Sys2Proof.Machine
end

