-- ==== Sys2Proof/Safety.lean ====
section
/-! DEFINITION. What a safe run is: a step stops with no fault and no refusal, the flash arrays keep their canonical
form, the management port's stores stay legal, and the commit queue holds exactly the CLOSED entries. With them, the
terms the statements use. -/

namespace Sys2Proof.Machine

/-- The outcome is a next state. -/
def isNext (o : Host.Outcome State Fault Refusal) : Prop := ∃ s, o = .next s

/-! ## Invariants -/

/-- Memory keeps its canonical form: both flash arrays (log 5). -/
def State.memoryWf (s : State) : Bool := s.flashA.wf && s.flashB.wf

/-- Every parameter lies within its range (R173). -/
def State.paramsWf (s : State) : Bool := s.mgmt.params.inRange

/-- Bits 14 and 15 of the flag word hold no flag and are clear (R176, R182). -/
def State.flagsWf (s : State) : Bool := s.mgmt.flags &&& ~~~flagBits == 0#16

/-- The invariant that every step keeps. -/
def State.Inv (s : State) : Prop := s.memoryWf = true ∧ s.paramsWf = true ∧ s.flagsWf = true

/-- The commit queue holds exactly the CLOSED entries, each once (R37), and the entry of the commit in progress is
COMMITTING (R38, R39). -/
def State.QueueInv (s : State) : Prop :=
  s.staging.queue.Nodup ∧ (∀ i, i ∈ s.staging.queue ↔ (s.entry i).state = .closed) ∧
    ∀ r i p, s.mover.activity = .running r → r.kind = .commit i p → (s.entry i).state = .committing

/-! ## Terms of the statements -/

/-- The flash arrays read the same at every address. -/
def SameArrays (s t : State) : Prop := ∀ bk a, t.flashByte bk a = s.flashByte bk a

/-- The commands at which an array may change: the ends of programs and erases, their timeouts, and the commands at
which a reset of the part may cut an erase or a program short. -/
def mayTouchArrays : Instr → Bool
  | .powerOn _ => true
  | .resetAsserted _ => true
  | .programVerifyDone _ _ => true
  | .programTimeout _ => true
  | .eraseComplete _ _ => true
  | .eraseCompleteInSuspending _ _ => true
  | .suspendAckTimeout _ => true
  | .eraseTimeout _ => true
  | .drainFinish => true
  | .pfailReleased => true
  | .restart => true
  | .sckRisingEdge _ => true
  | _ => false

/-- The commands at which a parameter may change (R173). -/
def mayTouchParams : Instr → Bool
  | .powerOn _ => true
  | .resetAsserted _ => true
  | .writeParam _ _ => true
  | .sckRisingEdge _ => true
  | _ => false

/-- The commands at which the alert mask may change (R178). -/
def mayTouchAlertMask : Instr → Bool
  | .powerOn _ => true
  | .resetAsserted _ => true
  | .setAlertMask _ => true
  | .sckRisingEdge _ => true
  | _ => false

/-- The action programs or verifies this halfword with this value. -/
def Action.writes (a : Action) (slot : SlotRef) (h : Fin 256) (v : HalfWord) : Prop :=
  a = .program slot h v ∨ a = .verify slot h v

/-- What a program of a class that was cut short, by its timeout or by a reset, may leave of a halfword: no bit is
set; outside the code only bits to be cleared are (R16, R109); and the code is damaged, the old one or the intended
one, but not a new IN USE (R22, R92), VALID (R61, R71), format mark (R147), after a reset CLAIMED (R71), or after a
reset FRESH where the block manager asked for it (R87), and of a repair cut by a reset it is damaged or STALE (R140).
-/
def CutLeaves (c : ReqClass) (timedOut : Bool) (slot : SlotRef) (h : Fin 256) (v old new : HalfWord) : Prop :=
  let f := codeFieldOf slot h
  old &&& new = new ∧
  (∃ x : HalfWord, new &&& ~~~f.mask = old &&& (v ||| x) &&& ~~~f.mask) ∧
  (f.damaged new = true ∨ f.of new = f.of old ∨ f.of new = f.of v) ∧
  (f = .descriptor → v.low = 0x3F#8 → new.low = 0x3F#8 → old.low = 0x3F#8) ∧
  (f = .descriptor → v.low = 0x7F#8 → timedOut = false → c ≠ .volume → new.low = 0x7F#8 → old.low = 0x7F#8) ∧
  (f = .entry → f.of v = 0x3000#16 → f.of new = 0x3000#16 → f.of old = 0x3000#16) ∧
  (f = .entry → f.of v = 0x7000#16 → timedOut = false → f.of new = 0x7000#16 → f.of old = 0x7000#16) ∧
  (f = .entry → f.of v = 0x0000#16 → timedOut = false → c = .volume → f.damaged new = true ∨ f.of new = 0x0000#16) ∧
  (f = .formatMark → new = 0x4C57#16 → old = 0x4C57#16)

/-- What an erase of A0 that did not complete with pass may leave of the volume record: where some mount takes it, the
old one was taken too and had the same bank count and L (R149, R150). -/
def PartErased (old new : Flash) : Prop :=
  new.volume.mountable = true →
    old.volume.mountable = true ∧ new.volume.banks = old.volume.banks ∧ new.volume.pages = old.volume.pages

/-- An erase held by some bank controller is of this block of this bank. -/
def State.erases (s : State) (bk : BankId) (index : Nat) : Prop :=
  ∃ other c, (s.bank other).context = some c ∧ BlockRef.bank c.block = bk ∧ BlockRef.index c.block = index

/-- The state with strobes on the pins. -/
def State.withStrobes (s : State) (x : Strobes) : State := { s with pins := { s.pins with strobes := x } }

/-- The state with a cycle completed at its port (R116). -/
def State.withDone (s : State) (c : Cycle) (fault : Bool) (data : Option HalfWord) : State :=
  { s with port := { state := .done, holdTimer := none,
                     cycle := some { c with wait := .none, outcome := some { fault := fault, data := data } } } }

/-- A host cycle may arrive at a page in a state with a volume, and passes the range check (R118). -/
def State.inRange (s : State) (addr : BitVec 22) : Prop :=
  s.port.state = .idle ∧ s.volumeMounted = true ∧ pageOf addr < s.capacity

/-- A host write that is to be handed to the staging buffer: in range, ACTIVE, latch clear, some byte enabled (R25,
R120). -/
def State.takesWrite (s : State) (addr : BitVec 22) (lower upper : Bool) : Prop :=
  s.port.state = .idle ∧ s.service.state = .active ∧ s.service.latch.isSet = false ∧ pageOf addr < s.capacity ∧
    (lower || upper) = true

/-- The state with a staging entry closed (R35). -/
def State.withClosed (s : State) (i : Fin 8) : State :=
  (s.setEntry i { s.entry i with state := .closed, idle := none, age := none }).setQueue (s.staging.queue ++ [i])

/-- A frame is in progress and what the receiver has sampled begins the frame of this command (R163; log 12). -/
def State.frameAllows (s : State) (code : Byte) (args : List Byte) : Prop :=
  s.mgmt.receiver.receiving = true ∧
    s.mgmt.receiver.sampled.isPrefixOf (bitsOf code ++ args.flatMap bitsOf) = true

/-- The state with the receiver in RESPONSE and a response captured (R163, R164). -/
def State.answered (s : State) (code : Byte) (args response : List Byte) : State :=
  s.setReceiver
    { state := .response, bits := [], cmd := some code, args := args, response := response, shifted := 0 }

/-- The bank of a bank controller that has begun a bank reset (R110). -/
def BankCtl.inReset (k : BankCtl) (timeout : Nat) : Prop :=
  k.state = .resetting ∧ k.active = none ∧ k.programTimer = none ∧ k.suspendTimer = none ∧
    k.resetTimer = some timeout

/-- Take commands one after another, stopping at a fault or a refusal. -/
def execAll : List Instr → State → Host.Outcome State Fault Refusal
  | [], s => .next s
  | c :: t, s =>
    match exec c s with
    | .next u => execAll t u
    | .fault r => .fault r
    | .refused r => .refused r

/-- The command byte and argument bytes of a management command (R164; spec 10, 11.6). -/
def commandFrame : Instr → Option (Byte × List Byte)
  | .identify => some (0x01#8, [])
  | .status => some (0x02#8, [])
  | .readFlags => some (0x03#8, [])
  | .clearFlags mask => some (0x04#8, argWord mask)
  | .setAlertMask mask => some (0x05#8, argWord mask)
  | .readParam id => some (0x06#8, [id])
  | .writeParam id value => some (0x07#8, id :: argWord value)
  | .flush => some (0x08#8, [])
  | .resumeCommit => some (0x09#8, [])
  | .format pages => some (0x0A#8, argWord pages)
  | .restart => some (0x0B#8, [])
  | .queryPage lpn => some (0x0C#8, argWord lpn)
  | .queryBlock bank index => some (0x0D#8, [bank, index])
  | .readCounter id => some (0x0E#8, [id])
  | .clearCounters => some (0x0F#8, [])
  | _ => none

end Sys2Proof.Machine
end

