-- ==== Sys2Proof/Certificates/Slice0/Obligations.lean ====
section
/-! DEFINITION. The statements for the provers. Each is written from the rules of spec/ its docstring names; where a
clause rests on a choice of the model, the docstring names the log entry. -/

open Sys2Proof Sys2Proof.Machine

/-! ## The machine -/

/-- A step is the command at the front of the queue, run on the state with the queue's rest. -/
def Obligations.StepRunsFrontCommand : Prop :=
  ∀ (c : Instr) (s : State) (rest : List Instr), step (s.withPending (c :: rest)) = exec c (s.withPending rest)

/-- The model's choice (log 2): a step on an empty queue is one microsecond. Timers run down (R32, R33, R101, R103,
R110, R124) and an erase's running time grows in ERASE and SUSPENDING and not in SUSPENDED (R96, R102). -/
def Obligations.IdleStepPassesOneMicrosecond : Prop :=
  ∀ s : State, s.pending = [] → ∃ t, step s = .next t ∧
    t.now = s.now + 1 ∧
    t.port = { s.port with holdTimer := s.port.holdTimer.map fun n => n - 1 } ∧
    (∀ i, t.entry i = { s.entry i with
      idle := (s.entry i).idle.map fun n => n - 1, age := (s.entry i).age.map fun n => n - 1 }) ∧
    t.staging.nextOpen = s.staging.nextOpen ∧ t.staging.queue = s.staging.queue ∧
    (∀ bk, t.bank bk = { s.bank bk with
      programTimer := (s.bank bk).programTimer.map fun n => n - 1
      suspendTimer := (s.bank bk).suspendTimer.map fun n => n - 1
      resetTimer := (s.bank bk).resetTimer.map fun n => n - 1
      context := (s.bank bk).context.map fun c => { c with
        runningTime := c.runningTime + (if (s.bank bk).eraseRunning then 1 else 0)
        quantumTimer :=
          if (s.bank bk).state = .erase then c.quantumTimer.map fun n => n - 1 else c.quantumTimer } }) ∧
    t.flashA = s.flashA ∧ t.flashB = s.flashB ∧ t.pins = s.pins ∧ t.service = s.service ∧ t.drain = s.drain ∧
    t.pageMap = s.pageMap ∧ t.mover = s.mover ∧ t.blocks = s.blocks ∧ t.engine = s.engine ∧ t.mgmt = s.mgmt ∧
    t.freeNext = s.freeNext ∧ t.pending = []

/-- The state after reset meets the invariants that every step keeps. -/
def Obligations.ResetMeetsInvariants : Prop := State.reset.Inv ∧ State.reset.QueueInv

/-- Every step keeps the arrays' canonical form, every parameter within its range (R173), and the bits of the flag
word that hold no flag clear (R176, R182). -/
def Obligations.StepKeepsInvariant : Prop := ∀ s t : State, s.Inv → step s = .next t → t.Inv

/-- Every step keeps the commit queue holding exactly the CLOSED entries, each once (R37), with the entry of the
commit in progress COMMITTING (R38, R39). -/
def Obligations.StepKeepsCommitQueue : Prop := ∀ s t : State, s.QueueInv → step s = .next t → t.QueueInv

/-- No command but a flash answer, a flash timeout or a reset of the part changes a byte of flash; none but a write of
it or a pin reset changes a parameter or the alert mask (R161, R173, R174, R178); none changes the queue. -/
def Obligations.ArraysParametersAndMaskAreFramed : Prop :=
  ∀ (c : Instr) (s t : State), exec c s = .next t →
    (mayTouchArrays c = false → SameArrays s t) ∧
    (mayTouchParams c = false → t.mgmt.params = s.mgmt.params) ∧
    (mayTouchAlertMask c = false → t.mgmt.alertMask = s.mgmt.alertMask) ∧
    t.pending = s.pending

/-- After a step's event the arbiter and the banks act (R50, R51, R98). Whatever they do, they leave these as they
were: the pins, the flash arrays, the page map, drain control, the volume engine, the service state and volume values,
the parameters, the alert mask, the receiver and the counters their work does not move. -/
def Obligations.SettlingKeepsTheRest : Prop :=
  ∀ s : State, (settle s).pins = s.pins ∧ (settle s).flashA = s.flashA ∧ (settle s).flashB = s.flashB ∧
    (settle s).pageMap = s.pageMap ∧ (settle s).drain = s.drain ∧ (settle s).engine = s.engine ∧
    (settle s).service = { s.service with latch := (settle s).service.latch } ∧
    (settle s).mgmt.params = s.mgmt.params ∧ (settle s).mgmt.alertMask = s.mgmt.alertMask ∧
    (settle s).mgmt.receiver = s.mgmt.receiver ∧
    (∀ c ∈ [Counter.hostReads, .relocations, .reclaimMoves, .erases, .eraseSuspends, .holdTimeouts, .programFailures],
      (settle s).counter c = s.counter c) ∧
    (settle s).now = s.now ∧ (settle s).freeNext = s.freeNext ∧ (settle s).pending = s.pending

/-! ## Power and reset -/

/-- POWER_ON and RESET_ASSERTED give every block the values of a pin reset: R71, R92, R113, R127, R129, R131, R132,
R151, R173, R176, R178, R179, R167, R6, R46. Values with no stated reset are log 23's: the open sequence of an EMPTY
entry and the mover buffer. -/
def Obligations.PinResetLeavesResetValues : Prop :=
  ∀ (banks : Strap) (s : State), ∃ t, exec (.powerOn banks) s = .next t ∧ exec (.resetAsserted banks) s = .next t ∧
    t.pins = { s.pins with banks := banks } ∧
    t.service = { state := .mounting, strap := banks
                  latch := { capacity := false, commitStuck := false, reclaimHalted := false }
                  pages := none, bankCount := none, serial := none } ∧
    t.drain = { line := false, restartPending := false, returnState := none } ∧
    t.port = { state := .inReset, holdTimer := none, cycle := none } ∧
    (∀ i, t.entry i = { state := .empty, page := none, staged := [], openSeq := 0, idle := none, age := none,
                        attempts := 0, cohort := false }) ∧
    t.staging.nextOpen = 0 ∧ t.staging.queue = [] ∧ t.pageMap = [] ∧
    t.mover = { activity := .idle, buffer := List.replicate 512 0xFF#8, lastGrant := .none, reserveHold := false } ∧
    t.blocks = { records := [], openBlock := none, reclaim := .none, victim := none, scanPos := 1,
                 eraseQueue := [], awaiting := none } ∧
    (∀ bk, t.bank bk = { state := .idle, hostRead := none, mover := none, descriptor := none, volume := none,
                         erase := none, active := none, context := none, programTimer := none,
                         suspendTimer := none, resetTimer := none, handOvers := 0 }) ∧
    t.engine = .idle ∧
    t.mgmt.params = { commitDelay := 2000, ageLimit := 50, holdLimit := 1000, inPlacePolicy := 0,
                      reclaimThreshold := 4, wearLimit := 1024, eraseQuantum := 2000, suspendLimit := 32,
                      programTimeout := 500, eraseTimeout := 4000 } ∧
    t.mgmt.flags = 0#16 ∧ t.mgmt.alertMask = 0#16 ∧ (∀ c, t.counter c = 0#32) ∧
    t.mgmt.receiver = { state := .idle, bits := [], cmd := none, args := [], response := [], shifted := 0 } ∧
    t.now = s.now ∧ t.pending = s.pending

/-- What a pin reset leaves in flash: a byte changes only in a block whose erase was in progress or in the halfword
whose program was (R113). That program has set no bit, and outside a code has cleared only bits to be cleared (R16);
its code is damaged, the old one or the intended one; where IN USE, VALID, CLAIMED or the format mark was intended it
is not that (R22, R71, R147, R150), and a repair's is damaged or STALE (R140). FRESH asked for by the block manager
leaves no FRESH code (R87), and a format's may (R181; log 34). An erase of A0 cut short has only set bits and leaves the
previous volume or no valid record (R150). Which bits and which of the codes allowed, and what a data block of a cut
erase reads as, are free values (log 8, 9). -/
def Obligations.PinResetCutsFlashWorkShort : Prop :=
  ∀ (banks : Strap) (s t : State) (bk : BankId),
    (exec (.powerOn banks) s = .next t ∨ exec (.resetAsserted banks) s = .next t) →
    (∀ a, ¬ s.erases bk (a / 65536) →
      (∀ c act slot h v, (s.bank bk).active = some { cls := c, act := act } → act.writes slot h v →
        a ≠ slot.addr (2 * h.val) ∧ a ≠ slot.addr (2 * h.val + 1)) →
      t.flashByte bk a = s.flashByte bk a) ∧
    (∀ c act slot h v, (s.bank bk).active = some { cls := c, act := act } → act.writes slot h v →
      ¬ s.erases bk (BlockRef.index slot.block) →
      CutLeaves c false slot h v ((s.flash bk).half slot h) ((t.flash bk).half slot h)) ∧
    ((∀ c act slot h v, s.bankA.active = some { cls := c, act := act } → act.writes slot h v →
        BlockRef.index slot.block ≠ 0) →
      PartErased s.flashA t.flashA ∧
        (s.memoryWf = true → ∀ a, a / 65536 = 0 → s.flashA.byte a &&& t.flashA.byte a = s.flashA.byte a))

/-- RESET_RELEASED: the port is IDLE and the mount begins with a bank reset of each present bank (R127, R135, R110);
nothing else changes. A read or write strobe asserted at the release arrives and is held for the mount, and both
strobes complete with FAULT (R127, R115, R119); the strobes asserted are those the pins hold (log 32). Where RESET is
not asserted there is no release (log 10). -/
def Obligations.ResetReleaseBeginsTheMount : Prop :=
  ∀ s : State,
    (s.port.state = .inReset → s.pins.strobes = .none →
      ∃ t, exec .resetReleased s = .next t ∧
        t = { s with
          port := { state := .idle, holdTimer := none, cycle := none }
          engine := t.engine, bankA := t.bankA, bankB := t.bankB } ∧
        (∃ w, t.engine = .mount w ∧ w.a.phase = .resetting ∧
          w.b.phase = (if s.service.strap = .two then .resetting else .absent) ∧ w.valid = false) ∧
        t.bankA.inReset s.mgmt.params.programTimeout ∧
        (if s.service.strap = .two then t.bankB.inReset s.mgmt.params.programTimeout else t.bankB = s.bankB)) ∧
    (∀ a lo up, s.port.state = .inReset → s.pins.strobes = .read a lo up → s.service.state = .mounting →
      ∃ t c, exec .resetReleased s = .next t ∧
        t.port = { state := .holding, holdTimer := some s.mgmt.params.holdLimit, cycle := some c } ∧
        c.kind = .read ∧ c.page = pageOf a ∧ c.offset = offsetOf a ∧ c.lower = lo ∧ c.upper = up ∧
        c.data = none ∧ c.wait = .mount ∧ c.outcome = none) ∧
    (∀ a lo up d, s.port.state = .inReset → s.pins.strobes = .write a lo up d → s.service.state = .mounting →
      ∃ t c, exec .resetReleased s = .next t ∧
        t.port = { state := .holding, holdTimer := some s.mgmt.params.holdLimit, cycle := some c } ∧
        c.kind = .write ∧ c.page = pageOf a ∧ c.offset = offsetOf a ∧ c.lower = lo ∧ c.upper = up ∧
        c.data = some d ∧ c.wait = .mount ∧ c.outcome = none ∧ t.staging = s.staging) ∧
    (∀ a lo up, s.port.state = .inReset → s.pins.strobes = .both a lo up →
      ∃ t, exec .resetReleased s = .next t ∧
        t.port = (s.withDone (newCycle .both a lo up none s) true none).port ∧ t.mgmt = s.mgmt) ∧
    (s.port.state ≠ .inReset → exec .resetReleased s = .next s)

/-- An internal reset gives every block its reset values (R161, R46, R71, R92, R113, R131, R151; those with no stated
reset: log 23) but for the parameters, the alert mask and the receiver (R161, R167), reads the strap (R2), and begins
the mount at once (R161); a HOLDING cycle completes with FAULT and any other cycle stays as it stands (R128). No byte
of flash changes outside a block whose erase it cuts short and a halfword whose program it cuts short (R113). -/
def Obligations.InternalResetLeavesResetValues : Prop :=
  ∀ s : State,
    (internalReset s).pins = s.pins ∧
    (internalReset s).service =
      { state := .mounting, strap := s.pins.banks
        latch := { capacity := false, commitStuck := false, reclaimHalted := false }
        pages := none, bankCount := none, serial := none } ∧
    (internalReset s).drain = { line := false, restartPending := false, returnState := none } ∧
    (∀ i, (internalReset s).entry i =
      { state := .empty, page := none, staged := [], openSeq := 0, idle := none, age := none, attempts := 0,
        cohort := false }) ∧
    (internalReset s).staging.nextOpen = 0 ∧ (internalReset s).staging.queue = [] ∧
    (internalReset s).pageMap = [] ∧
    (internalReset s).mover =
      { activity := .idle, buffer := List.replicate 512 0xFF#8, lastGrant := .none, reserveHold := false } ∧
    (internalReset s).blocks =
      { records := [], openBlock := none, reclaim := .none, victim := none, scanPos := 1, eraseQueue := [],
        awaiting := none } ∧
    (internalReset s).mgmt.params = s.mgmt.params ∧ (internalReset s).mgmt.alertMask = s.mgmt.alertMask ∧
    (internalReset s).mgmt.receiver = s.mgmt.receiver ∧ (internalReset s).mgmt.flags = 0#16 ∧
    (∀ c, (internalReset s).counter c = 0#32) ∧
    (∀ bk, (internalReset s).bank bk =
      (let resets : Prop := bk = .a ∨ s.pins.banks = .two
       { state := if resets then .resetting else .idle, hostRead := none, mover := none, descriptor := none,
         volume := none, erase := none, active := none, context := none, programTimer := none, suspendTimer := none,
         resetTimer := if resets then some s.mgmt.params.programTimeout else none, handOvers := 0 })) ∧
    (∃ w, (internalReset s).engine = .mount w ∧ w.a.phase = .resetting ∧
      w.b.phase = (if s.pins.banks = .two then .resetting else .absent) ∧ w.valid = false ∧ w.repaired = false) ∧
    (∀ c, s.port.state = .holding → s.port.cycle = some c →
      (internalReset s).port =
        { state := .done, holdTimer := none,
          cycle := some { c with
            wait := .none
            outcome := some { fault := true, data := if c.kind = .read then some 0xFFFF#16 else none } } }) ∧
    (s.port.state ≠ .holding → (internalReset s).port = s.port) ∧
    (∀ bk a, ¬ s.erases bk (a / 65536) →
      (∀ c act slot h v, (s.bank bk).active = some { cls := c, act := act } → act.writes slot h v →
        a ≠ slot.addr (2 * h.val) ∧ a ≠ slot.addr (2 * h.val + 1)) →
      (internalReset s).flashByte bk a = s.flashByte bk a) ∧
    (internalReset s).now = s.now ∧ (internalReset s).pending = s.pending

/-! ## Host cycles -/

/-- Only an IDLE port takes an arrival (R115): in HOLDING and DONE a strobe makes none and is not noted on the pins
either (the model's choice, log 32), and while RESET is asserted it is only noted on the pins (R127). A cycle with both
strobes completes at once with FAULT, and nothing else changes (R115, R126). -/
def Obligations.ArrivalsAreTakenInIdle : Prop :=
  ∀ (s : State) (a : BitVec 22) (lo up : Bool) (d : HalfWord),
    (s.port.state = .holding ∨ s.port.state = .done →
      exec (.hostReadArrival a lo up) s = .next s ∧ exec (.hostWriteArrival a lo up d) s = .next s ∧
      exec (.cycleBothStrobes a lo up) s = .next s) ∧
    (s.port.state = .inReset →
      exec (.hostReadArrival a lo up) s = .next (s.withStrobes (.read a lo up)) ∧
      exec (.hostWriteArrival a lo up d) s = .next (s.withStrobes (.write a lo up d)) ∧
      exec (.cycleBothStrobes a lo up) s = .next (s.withStrobes (.both a lo up))) ∧
    (s.port.state = .idle →
      exec (.cycleBothStrobes a lo up) s =
        .next ((s.withStrobes (.both a lo up)).withDone (newCycle .both a lo up none s) true none))

/-- Arrivals where no volume is in force (R117): held for the mount in MOUNTING with every field of the record as R114
gives it and the hold timer started (R115, R119); FFFFh for a read in UNFORMATTED and in DRAINED without a volume;
FAULT with FFFFh and no flag for a read in FORMATTING; FAULT and WRITE REFUSED for a write in all three. -/
def Obligations.ArrivalsWithoutAVolume : Prop :=
  ∀ (s : State) (a : BitVec 22) (lo up : Bool) (d : HalfWord), s.port.state = .idle →
    (s.service.state = .mounting →
      exec (.hostReadArrival a lo up) s = .next { s.withStrobes (.read a lo up) with
        port := { state := .holding, holdTimer := some s.mgmt.params.holdLimit,
                  cycle := some { kind := .read, page := a.toNat / 256, offset := 2 * (a.toNat % 256), lower := lo,
                                  upper := up, data := none, arrival := s.now,
                                  holdLimit := s.mgmt.params.holdLimit, wait := .mount, stagedLow := none,
                                  stagedHigh := none, slot := none, handed := false, outcome := none } } } ∧
      exec (.hostWriteArrival a lo up d) s = .next { s.withStrobes (.write a lo up d) with
        port := { state := .holding, holdTimer := some s.mgmt.params.holdLimit,
                  cycle := some { kind := .write, page := a.toNat / 256, offset := 2 * (a.toNat % 256), lower := lo,
                                  upper := up, data := some d, arrival := s.now,
                                  holdLimit := s.mgmt.params.holdLimit, wait := .mount, stagedLow := none,
                                  stagedHigh := none, slot := none, handed := false, outcome := none } } }) ∧
    (s.service.state = .unformatted ∨ s.service.state = .formatting ∨
        (s.service.state = .drained ∧ s.drain.returnState ≠ some .active) →
      exec (.hostReadArrival a lo up) s =
        .next ((s.withStrobes (.read a lo up)).withDone (newCycle .read a lo up none s)
          (s.service.state == .formatting) (some 0xFFFF#16)) ∧
      exec (.hostWriteArrival a lo up d) s =
        .next (((s.withStrobes (.write a lo up d)).withDone (newCycle .write a lo up (some d) s) true none).setFlag
          .writeRefused))

/-- A page at or above L in a state with a volume: FAULT and RANGE FAULT alone, FFFFh for a read, and no entry, map
entry, bank or counter touched, whatever the latch holds (R118). -/
def Obligations.RangeFaultsPagesBeyondCapacity : Prop :=
  ∀ (s : State) (a : BitVec 22) (lo up : Bool) (d : HalfWord),
    s.port.state = .idle → s.volumeMounted = true → s.capacity ≤ pageOf a →
    exec (.hostReadArrival a lo up) s =
      .next (((s.withStrobes (.read a lo up)).withDone (newCycle .read a lo up none s) true (some 0xFFFF#16)).setFlag
        .rangeFault) ∧
    exec (.hostWriteArrival a lo up d) s =
      .next (((s.withStrobes (.write a lo up d)).withDone (newCycle .write a lo up (some d) s) true none).setFlag
        .rangeFault)

/-- Writes in range that stage nothing: outside ACTIVE or with the latch set, FAULT and WRITE REFUSED (R117, R118,
R132); in ACTIVE with the latch clear and no byte enabled, a normal completion and no other effect (R25, R120). -/
def Obligations.WritesThatStageNothing : Prop :=
  ∀ (s : State) (a : BitVec 22) (lo up : Bool) (d : HalfWord), s.inRange a →
    (s.service.state ≠ .active ∨ s.service.latch.isSet = true →
      exec (.hostWriteArrival a lo up d) s =
        .next (((s.withStrobes (.write a lo up d)).withDone (newCycle .write a lo up (some d) s) true none).setFlag
          .writeRefused)) ∧
    (s.service.state = .active → s.service.latch.isSet = false →
      exec (.hostWriteArrival a false false d) s =
        .next ((s.withStrobes (.write a false false d)).withDone (newCycle .write a false false (some d) s) false
          none))

/-- A read in range whose two bytes are both staged, or whose page is UNMAPPED, completes at once with each staged
byte, and FFh for a byte not supplied; HOST READS counts it, and no bank is asked (R121, R126). -/
def Obligations.ReadsThatNeedNoBank : Prop :=
  ∀ (s : State) (a : BitVec 22) (lo up : Bool), s.inRange a →
    (s.mapped (pageOf a) = none ∨
      ((s.forward (pageOf a) (offsetOf a)).isSome = true ∧
        (s.forward (pageOf a) (offsetOf a + 1)).isSome = true)) →
    exec (.hostReadArrival a lo up) s =
      .next (((s.withStrobes (.read a lo up)).withDone
        { newCycle .read a lo up none s with
          stagedLow := s.forward (pageOf a) (offsetOf a)
          stagedHigh := s.forward (pageOf a) (offsetOf a + 1)
          slot := (s.mapped (pageOf a)).map fun e => e.slot }
        false
        (some (halfOf ((s.forward (pageOf a) (offsetOf a)).getD 0xFF#8)
          ((s.forward (pageOf a) (offsetOf a + 1)).getD 0xFF#8)))).bump .hostReads)

/-- Read forwarding takes each byte from the newest entry for the page that covers it: the GATHERING entry, then the
CLOSED entries newest close first, then the COMMITTING or STUCK entry (R42). -/
def Obligations.ForwardingTakesTheNewestEntry : Prop :=
  ∀ (s : State) (page o : Nat) (b : Byte),
    (∀ i, (s.entry i).state = .gathering → (s.entry i).supplies page o = some b →
      (∀ j, (s.entry j).state = .gathering → (s.entry j).page = some page → j = i) → s.forward page o = some b) ∧
    ((∀ j, (s.entry j).state = .gathering → (s.entry j).supplies page o = none) →
      (∀ i older newer, s.staging.queue = older ++ i :: newer → (s.entry i).supplies page o = some b →
        (∀ j ∈ newer, (s.entry j).supplies page o = none) → s.forward page o = some b) ∧
      ((∀ j ∈ s.staging.queue, (s.entry j).supplies page o = none) →
        (∀ i, ((s.entry i).state = .committing ∨ (s.entry i).state = .stuck) →
          (s.entry i).supplies page o = some b →
          (∀ j, ((s.entry j).state = .committing ∨ (s.entry j).state = .stuck) → j = i) →
          s.forward page o = some b) ∧
        ((∀ j, ((s.entry j).state = .committing ∨ (s.entry j).state = .stuck) →
          (s.entry j).supplies page o = none) → s.forward page o = none)))

/-- A read in range that needs a byte of flash is handed to the host read slot of its slot's bank and waits there
(R121, R122); the bank considers it at once: an IDLE bank serves it (R98), and a bank in ERASE requests a suspend with
cause READ when the quantum has run out and the suspend count is below the captured limit, and else lets the erase run
(R103). -/
def Obligations.ReadsAreHandedToTheirBank : Prop :=
  ∀ (s : State) (a : BitVec 22) (lo up : Bool) (e : MapEntry), s.inRange a →
    s.mapped (pageOf a) = some e → (s.bank e.slot.bank).hostRead = none →
    ((s.forward (pageOf a) (offsetOf a)).isSome && (s.forward (pageOf a) (offsetOf a + 1)).isSome) = false →
    ∃ t, exec (.hostReadArrival a lo up) s = .next t ∧
      t = { (s.withStrobes (.read a lo up)).setBank e.slot.bank (t.bank e.slot.bank) with port := t.port } ∧
      t.port = { state := .holding, holdTimer := some s.mgmt.params.holdLimit,
                 cycle := some { newCycle .read a lo up none s with
                   stagedLow := s.forward (pageOf a) (offsetOf a)
                   stagedHigh := s.forward (pageOf a) (offsetOf a + 1)
                   slot := some e.slot, wait := .bank, handed := true } } ∧
      (t.bank e.slot.bank).hostRead = some { slot := e.slot, offset := offsetOf a, withdrawn := false } ∧
      ((s.bank e.slot.bank).state = .idle → (s.bank e.slot.bank).active = none →
        (t.bank e.slot.bank).state = .read ∧
        (t.bank e.slot.bank).active = some { cls := .host, act := .read e.slot (offsetOf a) 2 }) ∧
      (∀ c, (s.bank e.slot.bank).state = .erase → (s.bank e.slot.bank).active = none →
        (s.bank e.slot.bank).context = some c →
        (c.quantumTimer = none → c.suspendCount < c.suspendLimit →
          (t.bank e.slot.bank).state = .suspending ∧
          (t.bank e.slot.bank).context = some { c with cause := .read } ∧
          (t.bank e.slot.bank).suspendTimer = some s.mgmt.params.programTimeout) ∧
        (c.quantumTimer ≠ none ∨ c.suspendLimit ≤ c.suspendCount →
          (t.bank e.slot.bank).state = .erase ∧ (t.bank e.slot.bank).context = some c))

/-- The halfword of a host read returns (R100, R122): the cycle completes normally with the array's halfword under
the staged bytes, HOST READS counts it and the slot is empty. The data of a withdrawn read is discarded (R99). Only
the banks' own next choices follow (R98). -/
def Obligations.HostReadDataReturns : Prop :=
  ∀ (s : State) (bk : BankId) (slot : SlotRef) (o : Nat) (h : HostRead),
    (s.bank bk).active = some { cls := .host, act := .read slot o 2 } → (s.bank bk).hostRead = some h →
    (∀ c x, h.withdrawn = false → s.port.state = .holding → s.port.cycle = some c → c.wait = .bank →
      c.handed = true → c.slot = some x → x.bank = bk →
      ∃ t, exec (.arrayReadDone bk .array) s = .next t ∧
        t = { (s.withDone c false
          (some (halfOf (c.stagedLow.getD (s.flashByte bk (slot.addr o)))
            (c.stagedHigh.getD (s.flashByte bk (slot.addr (o + 1))))))).bump .hostReads with
          bankA := t.bankA, bankB := t.bankB } ∧
        (t.bank bk).hostRead = none) ∧
    (h.withdrawn = true → s.waiting .bank = none →
      ∃ t, exec (.arrayReadDone bk .array) s = .next t ∧
        t = { s with bankA := t.bankA, bankB := t.bankB } ∧ (t.bank bk).hostRead = none)

/-- A write that merges into its page's GATHERING entry (R26): each enabled byte is stored at its offset and no other
staged byte changes, the idle timer restarts with a commit delay above 0, HOST WRITES counts it and the cycle completes
normally (R29); the entry closes if its mask is complete or the commit delay is 0 (R28, R35). -/
def Obligations.WritesMergeIntoTheGatheringEntry : Prop :=
  ∀ (s : State) (a : BitVec 22) (lo up : Bool) (d : HalfWord) (i : Fin 8), s.takesWrite a lo up →
    s.gatheringFor (pageOf a) = some i →
    ∃ staged : List (Nat × Byte),
      (∀ o, assocGet staged o =
        if up = true ∧ o = offsetOf a + 1 then some d.high
        else if lo = true ∧ o = offsetOf a then some d.low
        else assocGet (s.entry i).staged o) ∧
      (let delay := s.mgmt.params.commitDelay
       let u := (((s.withStrobes (.write a lo up d)).withDone (newCycle .write a lo up (some d) s) false none).setEntry i
          { s.entry i with staged := staged, idle := if delay = 0 then (s.entry i).idle else some delay }).bump
          .hostWrites
       exec (.hostWriteArrival a lo up d) s =
         .next (settle (if staged.length = 512 ∨ delay = 0 then u.withClosed i else u)))

/-- A write for a page with no GATHERING entry opens the lowest-numbered EMPTY entry (R24, R27): its page, the next
open number, the age limit and the commit delay in force, only the enabled bytes under the mask; with commit delay 0 it
closes at the write (R28). -/
def Obligations.WritesOpenTheLowestEmptyEntry : Prop :=
  ∀ (s : State) (a : BitVec 22) (lo up : Bool) (d : HalfWord) (i : Fin 8), s.takesWrite a lo up →
    s.gatheringFor (pageOf a) = none → (s.entry i).state = .empty → (∀ j, j < i → (s.entry j).state ≠ .empty) →
    (let delay := s.mgmt.params.commitDelay
     let w := ((s.withStrobes (.write a lo up d)).withDone (newCycle .write a lo up (some d) s) false none).setEntry i
        { state := .gathering, page := some (pageOf a)
          staged := (if lo then [(offsetOf a, d.low)] else []) ++ (if up then [(offsetOf a + 1, d.high)] else [])
          openSeq := s.staging.nextOpen, idle := if delay = 0 then none else some delay
          age := some (1000 * s.mgmt.params.ageLimit), attempts := 0, cohort := false }
     let u := ({ w with staging := { w.staging with nextOpen := s.staging.nextOpen + 1#32 } }).bump .hostWrites
     exec (.hostWriteArrival a lo up d) s = .next (settle (if delay = 0 then u.withClosed i else u)))

/-- A write for a page with no GATHERING entry, with no entry EMPTY, is held with wait staging; the GATHERING entry
that opened before every other closes, and nothing is evicted when none is GATHERING (R24, R30). -/
def Obligations.WritesAreHeldWhenTheBufferIsFull : Prop :=
  ∀ (s : State) (a : BitVec 22) (lo up : Bool) (d : HalfWord), s.takesWrite a lo up →
    s.gatheringFor (pageOf a) = none → (∀ j, (s.entry j).state ≠ .empty) →
    (let u := { s.withStrobes (.write a lo up d) with
        port := { state := .holding, holdTimer := some s.mgmt.params.holdLimit,
                  cycle := some { newCycle .write a lo up (some d) s with wait := .staging } } }
     ((∀ j, (s.entry j).state ≠ .gathering) → exec (.hostWriteArrival a lo up d) s = .next (settle u)) ∧
     (∀ i, (s.entry i).state = .gathering →
       (∀ j, (s.entry j).state = .gathering → j ≠ i →
         1 ≤ ((s.entry j).openSeq - (s.entry i).openSeq).toNat ∧
           ((s.entry j).openSeq - (s.entry i).openSeq).toNat ≤ 2147483647) →
       exec (.hostWriteArrival a lo up d) s = .next (settle (u.withClosed i))))

/-- The host withdraws its strobes: a DONE cycle ends and a HOLDING cycle is abandoned, the port is IDLE with no
record, and no flag or counter changes (R116, R125); the bank read of an abandoned cycle is dropped if its bank is not
carrying it out, and marked withdrawn if it is (R99). While a cycle is DONE, READY is high and FAULT and the data lines
show its outcome; afterwards READY is high, FAULT not asserted and no data driven (R114, R116). One event serves both
commands (log 11). -/
def Obligations.StrobesWithdrawnEndTheCycle : Prop :=
  ∀ s : State,
    (let idle : State := { s.withStrobes .none with port := { state := .idle, holdTimer := none, cycle := none } }
     (s.port.state = .done → exec .cycleEnd s = .next idle) ∧
     (idle.ready = true ∧ idle.faultPin = false ∧ idle.dataLines = none) ∧
     (∀ c fault data, (s.withDone c fault data).ready = true ∧ (s.withDone c fault data).faultPin = fault ∧
       (s.withDone c fault data).dataLines = data) ∧
     (∀ c, s.port.state = .holding → s.port.cycle = some c →
       ((c.wait ≠ .bank ∨ c.handed = false → exec .cycleAbandoned s = .next idle) ∧
        (∀ x h, c.wait = .bank → c.handed = true → c.slot = some x → (s.bank x.bank).hostRead = some h →
          exec .cycleAbandoned s = .next (idle.setBank x.bank { s.bank x.bank with
            hostRead := if (s.bank x.bank).servingHost then some { h with withdrawn := true } else none })))))

/-- The hold timer of a HOLDING cycle runs out (R124): FAULT, FFFFh for a read, HOLD TIMEOUT and HOLD TIMEOUTS, and a
bank read handed over is withdrawn (R99); nothing else changes. An expiry has no effect outside HOLDING. -/
def Obligations.HoldExpiryFaultsTheCycle : Prop :=
  ∀ s : State,
    (∀ c, s.port.state = .holding → s.port.cycle = some c →
      (let u := ((s.withDone c true (if c.kind = .read then some 0xFFFF#16 else none)).setFlag .holdTimeout).bump
          .holdTimeouts
       ((c.wait ≠ .bank ∨ c.handed = false → exec .holdTimerExpiry s = .next u) ∧
        (∀ x h, c.wait = .bank → c.handed = true → c.slot = some x → (s.bank x.bank).hostRead = some h →
          exec .holdTimerExpiry s = .next (u.setBank x.bank { s.bank x.bank with
            hostRead := if (s.bank x.bank).servingHost then some { h with withdrawn := true } else none }))))) ∧
    (s.port.state ≠ .holding → exec .holdTimerExpiry s = .next s)

/-- The idle or the age timer of a GATHERING entry runs out: the entry closes, its timers stop and it joins the tail
of the commit queue (R32, R33, R35). A timer that is not running has no expiry. -/
def Obligations.TimerExpiryClosesTheEntry : Prop :=
  ∀ (s : State) (i : Fin 8),
    ((s.entry i).state = .gathering → (s.entry i).idle ≠ none →
      exec (.idleTimerExpiry i) s = .next (settle (s.withClosed i))) ∧
    ((s.entry i).state = .gathering → (s.entry i).age ≠ none →
      exec (.ageTimerExpiry i) s = .next (settle (s.withClosed i))) ∧
    ((s.entry i).idle = none → exec (.idleTimerExpiry i) s = .next s) ∧
    ((s.entry i).age = none → exec (.ageTimerExpiry i) s = .next s)

/-! ## Flash answers and timers -/

/-- The flash reports the end of a halfword program: the program timer stops and the verify read begins, the bank state
as it was; with no program in progress the report is ignored (R101, R109). The verify read returns: the program
passes exactly when the value read is the value intended and sets no bit that the array held at 0, PROGRAM FAILURES
counts every other end (R101, R179), and the array changes in that halfword alone. That the array then holds the value
read, with no bit set that was clear, is log 7's. -/
def Obligations.ProgramsEndByTheirVerify : Prop :=
  (∀ (s : State) (bk : BankId),
    (∀ c slot h v, (s.bank bk).active = some { cls := c, act := .program slot h v } →
      exec (.programEnd bk) s = .next (s.setBank bk { s.bank bk with
        active := some { cls := c, act := .verify slot h v }, programTimer := none })) ∧
    ((∀ c slot h v, (s.bank bk).active ≠ some { cls := c, act := .program slot h v }) →
      exec (.programEnd bk) s = .next s)) ∧
  (∀ (s : State) (bk : BankId) (value : HalfWord) (c : ReqClass) (slot : SlotRef) (h : Fin 256) (v : HalfWord),
    (s.bank bk).active = some { cls := c, act := .verify slot h v } →
    ∃ t, exec (.programVerifyDone bk value) s = .next t ∧
      (t.flash bk).half slot h = ((s.flash bk).half slot h &&& value) ∧
      (∀ other a, (other = bk → a ≠ slot.addr (2 * h.val) ∧ a ≠ slot.addr (2 * h.val + 1)) →
        t.flashByte other a = s.flashByte other a) ∧
      t.counter .programFailures =
        (if value = v ∧ ((s.flash bk).half slot h &&& v) = v then s.counter .programFailures
         else saturatingSucc (s.counter .programFailures)))

/-- The VALID program of an operation's new slot passes: in the same step the page map names the new slot with the new
version for the operation's page and no other page's entry changes (R5, R17, R60, R64), the new slot's block counts one
live page more and the old slot's one less (R5, R73), and an old slot's STALE program is handed to its bank (R60,
R97). -/
def Obligations.ValidProgramMovesThePage : Prop :=
  ∀ (s : State) (bk : BankId) (v : HalfWord) (r : OpRecord) (n : SlotRef) (q : Request) (slot : SlotRef) (h : Fin 256),
    s.mover.activity = .running r → r.phase = .valid → r.newSlot = some n →
    (s.bank bk).active = some { cls := .mover, act := .verify slot h v } → (s.bank bk).mover = some q →
    q.op = .mark n codeValid → ((s.flash bk).half slot h &&& v) = v →
    ∃ t, exec (.programVerifyDone bk v) s = .next t ∧
      t.mapped r.page = some { slot := n, version := r.newVersion } ∧
      (∀ p, p ≠ r.page → t.mapped p = s.mapped p) ∧
      (∀ k, s.record n.block = some k → (∀ old, r.source = some old → old.slot.block ≠ n.block) →
        ∃ k', t.record n.block = some k' ∧ k'.live = k.live + 1) ∧
      (∀ old, r.source = some old →
        (∀ k, s.record old.slot.block = some k → old.slot.block ≠ n.block →
          ∃ k', t.record old.slot.block = some k' ∧ k'.live = k.live - 1) ∧
        t.mover.activity = .running { r with phase := .staleOld } ∧
        ∃ w, (t.bank old.slot.bank).mover = some w ∧ w.op = .mark old.slot codeStale)

/-- A program of an operation's new slot fails (R61): no map entry changes, and the STALE program of the new slot's
owner entry is handed to its bank. -/
def Obligations.FailedAttemptMarksTheNewSlotStale : Prop :=
  ∀ (s : State) (bk : BankId) (value v : HalfWord) (r : OpRecord) (n : SlotRef) (q : Request) (slot : SlotRef)
    (h : Fin 256),
    s.mover.activity = .running r →
    (r.phase = .claimPage ∨ r.phase = .claimState ∨ (∃ k, r.phase = .data k) ∨ r.phase = .valid) →
    r.newSlot = some n → (s.bank bk).active = some { cls := .mover, act := .verify slot h v } →
    (s.bank bk).mover = some q → (∀ b g step, q.op ≠ .descriptor b g step) →
    (value ≠ v ∨ ((s.flash bk).half slot h &&& v) ≠ v) →
    ∃ t, exec (.programVerifyDone bk value) s = .next t ∧ t.pageMap = s.pageMap ∧
      t.mover.activity = .running { r with phase := .staleNew } ∧
      (∃ w, (t.bank n.bank).mover = some w ∧ w.op = .mark n codeStale) ∧
      t.counter .programFailures = saturatingSucc (s.counter .programFailures)

/-- A descriptor program is a sequence of halfword programs for one request (R181): FRESH writes the count and then the
state byte, IN USE the state halfword alone, RETIRED reads first and then writes the count only where it is erased; a
halfword that passes is followed by the next, and the request keeps its slot and its moment. -/
def Obligations.DescriptorProgramsEndWithTheStateByte : Prop :=
  (∀ n, (DescProgram.fresh n).start =
    .write 1 (BitVec.ofNat 16 (n / 256)) [(0, halfOf 0x7F#8 (BitVec.ofNat 8 n))]) ∧
  (∀ low, (DescProgram.inUse low).start = .write 0 (halfOf 0x3F#8 low) []) ∧
  (∀ n, (DescProgram.retired n).start = .read) ∧
  (∀ n x, retiredStep n [x, 0xFF#8, 0xFF#8, 0xFF#8] =
    .write 1 (BitVec.ofNat 16 (n / 256)) [(0, halfOf 0x00#8 (BitVec.ofNat 8 n))]) ∧
  (∀ n x c0 c1 c2, ¬ (c0 = 0xFF#8 ∧ c1 = 0xFF#8 ∧ c2 = 0xFF#8) →
    retiredStep n [x, c0, c1, c2] = .write 0 (halfOf 0x00#8 c0) []) ∧
  (∀ (s : State) (bk : BankId) (c : ReqClass) (q : Request) (b : BlockRef) (g : DescProgram) (slot : SlotRef)
    (half h h2 : Fin 256) (v w v2 : HalfWord) (rest : List (Fin 256 × HalfWord)),
    (s.bank bk).active = some { cls := c, act := .verify slot half v } → (s.bank bk).slot c = some q →
    (c = .mover → s.moverIdle = false) →
    q.op = .descriptor b g (.write h w ((h2, v2) :: rest)) → ((s.flash bk).half slot half &&& v) = v →
    ∃ t, exec (.programVerifyDone bk v) s = .next t ∧
      ∃ q', (t.bank bk).slot c = some q' ∧ q'.op = .descriptor b g (.write h2 v2 rest) ∧ q'.moment = q.moment)

/-- An erase the block manager started ends with the flash's result, in ERASE or SUSPENDING alike (R102, R105): the
array of the block reads FFh on pass (R100) and no byte outside the block changes; the table takes the count, ERASES
counts a pass, and FRESH or RETIRED is handed to the bank (R86); the erase context and the suspend-acknowledge timer
are cleared. For the volume engine ERASES counts a pass too; A0's pass begins step 3, each bank's first block that is
not RETIRED being handed for erase with its count, and A0's fail ends the format UNFORMATTED with FORMAT FAILED,
leaving the previous volume or no valid record (R145, R149; log 9); in step 3 a pass asks for FRESH with the next
count and a fail for RETIRED (R146); in an abandoned format the result is not used (R149). With no erase running the
report is ignored (R105, R108). -/
def Obligations.EraseCompleteIsTaken : Prop :=
  ∀ (s : State) (bk : BankId) (pass : Bool),
    (∀ c r, (s.bank bk).eraseRunning = true → (s.bank bk).context = some c → c.requester = .blockManager →
      BlockRef.bank c.block = bk → s.record c.block = some r →
      ∃ t, exec (.eraseComplete bk pass) s = .next t ∧ exec (.eraseCompleteInSuspending bk pass) s = .next t ∧
        (t.bank bk).context = none ∧ (t.bank bk).suspendTimer = none ∧
        (pass = true → ∀ a, a / 65536 = BlockRef.index c.block → t.flashByte bk a = 0xFF#8) ∧
        (∀ other a, (other = bk → a / 65536 ≠ BlockRef.index c.block) → t.flashByte other a = s.flashByte other a) ∧
        t.record c.block = some { r with
          eraseCount := if pass then min (r.eraseCount + 1) 16777215 else r.eraseCount, claimed := 0, live := 0 } ∧
        t.counter .erases = (if pass then saturatingSucc (s.counter .erases) else s.counter .erases) ∧
        ∃ q, (t.bank bk).descriptor = some q ∧
          q.op = (if pass ∧ r.condemned = false then
              .descriptor c.block (.fresh (min (r.eraseCount + 1) 16777215))
                (DescProgram.fresh (min (r.eraseCount + 1) 16777215)).start
            else
              .descriptor c.block
                (.retired (if pass then min (r.eraseCount + 1) 16777215 else r.eraseCount)) .read)) ∧
    (∀ c w, (s.bank bk).eraseRunning = true → (s.bank bk).context = some c → c.requester = .volumeEngine →
      BlockRef.bank c.block = bk → s.engine = .format w →
      ∃ u, exec (.eraseComplete bk pass) s = .next (kickBanks u) ∧
        exec (.eraseCompleteInSuspending bk pass) s = .next (kickBanks u) ∧
        u.counter .erases = (if pass then saturatingSucc (s.counter .erases) else s.counter .erases) ∧
        (pass = true → ∀ a, a / 65536 = BlockRef.index c.block → u.flashByte bk a = 0xFF#8) ∧
        (w.abandoned = true → u.engine = s.engine ∧ u.service = s.service ∧ u.blocks = s.blocks) ∧
        (w.abandoned = false → w.stage = .erasingVolume → c.block = 0 →
          (pass = true → (∀ k p, p ∈ (w.bank k).known → BlockRef.bank p.1 = k) →
            ∃ w', u.engine = .format w' ∧ w'.stage = .blocks ∧
              ∀ k, (w.bank k).phase ≠ .absent →
                (∀ p, p ∈ (w'.bank k).made ↔ ∃ q ∈ (w.bank k).known, q.2.1 = true ∧
                  p = (q.1, { state := .retired, eraseCount := q.2.2.getD 0, claimed := 0, live := 0,
                              condemned := false })) ∧
                ((∀ q ∈ (w.bank k).known, q.2.1 = true) → (w'.bank k).phase = .finished) ∧
                (∀ b rest, ((w.bank k).known.filter fun q => !q.2.1).map Prod.fst = b :: rest →
                  (w'.bank k).phase = .erasing (w.countFor b) (b :: rest) ∧
                  (u.bank k).erase = some { block := b, requester := .volumeEngine })) ∧
          (pass = false → u.engine = .idle ∧ u.service = { s.service with state := .unformatted } ∧
            u.hasFlag .formatFailed = true ∧ PartErased s.flashA u.flashA)) ∧
        (∀ n b rest, w.abandoned = false → w.stage = .blocks → (w.bank bk).phase = .erasing n (b :: rest) →
          c.block = b → ∃ q, (u.bank bk).volume = some q ∧
            (pass = true → q.op = .descriptor b (.fresh (min (n + 1) 16777215))
                (DescProgram.fresh (min (n + 1) 16777215)).start ∧
              u.engine = .format (w.setBank bk { w.bank bk with
                phase := .freshing (min (n + 1) 16777215) (b :: rest) })) ∧
            (pass = false → q.op = .descriptor b (.retired n) .read ∧
              u.engine = .format (w.setBank bk { w.bank bk with phase := .retiring n (b :: rest) })))) ∧
    ((s.bank bk).eraseRunning = false →
      exec (.eraseComplete bk pass) s = .next s ∧ exec (.eraseCompleteInSuspending bk pass) s = .next s)

/-- The quantum timer runs out in ERASE (R103): with a host, mover or volume read waiting and the suspend count below
the captured limit, a suspend is requested with cause READ and the suspend-acknowledge timer starts with the program
timeout; otherwise the timer is only run out; it is acted on only in ERASE. The flash acknowledges the suspend in
SUSPENDING (R104): the suspend-acknowledge timer stops, the bank is SUSPENDED, the suspend count grows by 1 for cause
READ and stays for cause POWER, and ERASE SUSPENDS counts it; the bank then makes its choice. In any other state the
acknowledgement is ignored (R105). -/
def Obligations.SuspendsAreDecidedAndAcknowledged : Prop :=
  (∀ (s : State) (bk : BankId),
    (∀ c, (s.bank bk).state = .erase → (s.bank bk).active = none → (s.bank bk).context = some c →
      exec (.quantumTimerExpiry bk) s = .next (s.setBank bk
        (if (s.bank bk).readWaits = true ∧ c.suspendCount < c.suspendLimit then
          { s.bank bk with
            state := .suspending
            context := some { c with quantumTimer := none, cause := .read }
            suspendTimer := some s.mgmt.params.programTimeout }
         else { s.bank bk with context := some { c with quantumTimer := none } }))) ∧
    ((s.bank bk).state ≠ .erase → exec (.quantumTimerExpiry bk) s = .next s)) ∧
  (∀ (s : State) (bk : BankId),
    (∀ c, (s.bank bk).state = .suspending → (s.bank bk).context = some c →
      exec (.suspendAcknowledged bk) s = .next (kickBank bk ((s.setBank bk { s.bank bk with
        state := .suspended, suspendTimer := none
        context := some { c with
          suspendCount := if c.cause = .read then c.suspendCount + 1 else c.suspendCount } }).bump
        .eraseSuspends))) ∧
    ((s.bank bk).state ≠ .suspending → exec (.suspendAcknowledged bk) s = .next s))

/-- The program timer runs out before the program end (R109): PROGRAM FAILURES counts the fail, a bank reset begins
with the program timeout (R110), and in SUSPENDED the erase ends too (R111). The halfword has set no bit, outside a
code it has only lost bits it was to lose (R16, R109), and its code is damaged, the old one or the intended one, but
where IN USE, VALID or the format mark was intended not that (R22, R61, R92, R147); which of these is log 8's free
value. With no program in progress there is no expiry. -/
def Obligations.ProgramTimeoutFailsTheProgram : Prop :=
  ∀ (s : State) (bk : BankId),
    (∀ c slot h v, (s.bank bk).active = some { cls := c, act := .program slot h v } →
      ∃ t, exec (.programTimeout bk) s = .next t ∧ (t.bank bk).inReset s.mgmt.params.programTimeout ∧
        t.counter .programFailures = saturatingSucc (s.counter .programFailures) ∧
        ((s.bank bk).state = .suspended → (t.bank bk).context = none) ∧
        ((s.bank bk).state ≠ .suspended →
          CutLeaves c true slot h v ((s.flash bk).half slot h) ((t.flash bk).half slot h) ∧
          ∀ other a, (other = bk → a ≠ slot.addr (2 * h.val) ∧ a ≠ slot.addr (2 * h.val + 1)) →
            t.flashByte other a = s.flashByte other a)) ∧
    ((∀ c slot h v, (s.bank bk).active ≠ some { cls := c, act := .program slot h v }) →
      exec (.programTimeout bk) s = .next s)

/-- The erase timeout in ERASE or SUSPENDING and the suspend-acknowledge timeout in SUSPENDING end the erase with fail
and begin a bank reset (R108, R109, R110): no byte outside the block changes, the context is cleared, ERASES is
unchanged, and for an erase of the block manager the table keeps the count and RETIRED is handed to the bank (R86).
For an erase of the volume engine, A0's timeout ends the format UNFORMATTED with FORMAT FAILED, leaving the previous
volume or no valid record (R145; log 9), and a data block's asks for RETIRED with its count (R146). -/
def Obligations.EraseTimeoutsFailTheErase : Prop :=
  ∀ (s : State) (bk : BankId),
    (∀ c, (s.bank bk).context = some c → BlockRef.bank c.block = bk →
      (let failed : State → Prop := fun t =>
         (t.bank bk).inReset s.mgmt.params.programTimeout ∧ (t.bank bk).context = none ∧
         (∀ other a, (other = bk → a / 65536 ≠ BlockRef.index c.block) → t.flashByte other a = s.flashByte other a) ∧
         t.counter .erases = s.counter .erases ∧
         (∀ r, c.requester = .blockManager → s.record c.block = some r →
           t.record c.block = some { r with claimed := 0, live := 0 } ∧
           ∃ q, (t.bank bk).descriptor = some q ∧ q.op = .descriptor c.block (.retired r.eraseCount) .read) ∧
         ∀ w, c.requester = .volumeEngine → s.engine = .format w → w.abandoned = false →
           (w.stage = .erasingVolume → c.block = 0 →
             t.engine = .idle ∧ t.service.state = .unformatted ∧ t.hasFlag .formatFailed = true ∧
             PartErased s.flashA t.flashA) ∧
           (∀ n b rest, w.stage = .blocks → (w.bank bk).phase = .erasing n (b :: rest) → c.block = b →
             ∃ q, (t.bank bk).volume = some q ∧ q.op = .descriptor b (.retired n) .read)
       ((s.bank bk).eraseRunning = true → ∃ t, exec (.eraseTimeout bk) s = .next t ∧ failed t) ∧
       ((s.bank bk).state = .suspending → ∃ t, exec (.suspendAckTimeout bk) s = .next t ∧ failed t))) ∧
    ((s.bank bk).eraseRunning = false → exec (.eraseTimeout bk) s = .next s) ∧
    ((s.bank bk).state ≠ .suspending → exec (.suspendAckTimeout bk) s = .next s)

/-- A bank reset ends, at the flash's report or at its timer: the bank is IDLE with its timer stopped and makes its
next choice (R110). At a mount's start, bank A then reads slot 0 of A0, and bank B scans or waits for the record
(R135, R136, R137). A report with no bank reset in progress is ignored (R110). -/
def Obligations.BankResetEnds : Prop :=
  ∀ (s : State) (bk : BankId),
    ((s.bank bk).state = .resetting → exec (.bankResetComplete bk) s = exec (.bankResetTimerExpiry bk) s ∧
      (s.engine = .idle →
        exec (.bankResetComplete bk) s =
          .next (kickBanks (s.setBank bk { s.bank bk with state := .idle, resetTimer := none }))) ∧
      (∀ w, s.engine = .mount w → (w.bank bk).phase = .resetting →
        ∃ t, exec (.bankResetComplete bk) s = .next t ∧ (t.bank bk).resetTimer = none ∧
          (bk = .a → t.engine = .mount (w.setPhase .a .record) ∧
            ∃ q, t.bankA.volume = some q ∧ q.op = .readSlot { block := 0, slot := 0 }) ∧
          (bk = .b → w.valid = false → t.engine = .mount (w.setPhase .b .waiting)) ∧
          (bk = .b → w.valid = true → s.service.strap = .two →
            t.engine = .mount (w.setPhase .b (.scanning (dataBlocks .two .b))) ∧
            ∃ q, t.bankB.volume = some q ∧ q.op = .readSlot { block := 64, slot := 0 }))) ∧
    ((s.bank bk).state ≠ .resetting →
      exec (.bankResetComplete bk) s = .next s ∧ exec (.bankResetTimerExpiry bk) s = .next s)

/-- A bank's choice changes that bank controller alone (R98). IDLE: the host read first; else the oldest of mover,
descriptor and volume, a program starting its timer (R101); else the erase, with its context captured from the
parameters (R102), unless PFAIL or restart-pending holds it. SUSPENDED: the host read first, then the oldest mover or
volume read, and under power hold the oldest request of all, a program too, the bank staying SUSPENDED (R98, R104,
R111); with no read waiting, a resume without power hold and nothing under it (R106). ERASE: a suspend for a waiting
read when the quantum has run out and the limit allows (R103). In any other state nothing. -/
def Obligations.BanksChooseInOrder : Prop :=
  ∀ (s : State) (bk : BankId),
    kickBank bk s = s.setBank bk ((kickBank bk s).bank bk) ∧
    ((s.bank bk).active = none →
      ((s.bank bk).state = .idle →
        (∀ h, (s.bank bk).hostRead = some h →
          ((kickBank bk s).bank bk).state = .read ∧
          ((kickBank bk s).bank bk).active = some { cls := .host, act := .read h.slot h.offset 2 }) ∧
        (∀ c q, (s.bank bk).hostRead = none → (s.bank bk).slot c = some q →
          (∀ c' q', (s.bank bk).slot c' = some q' → c' ≠ c → q.moment < q'.moment) →
          ((kickBank bk s).bank bk).active = some { cls := c, act := q.op.action (s.flash bk) } ∧
          ((q.op.action (s.flash bk)).isProgram = true →
            ((kickBank bk s).bank bk).state = .program ∧
            ((kickBank bk s).bank bk).programTimer = some s.mgmt.params.programTimeout) ∧
          ((q.op.action (s.flash bk)).isProgram = false → ((kickBank bk s).bank bk).state = .read)) ∧
        ((s.bank bk).hostRead = none → (∀ c, (s.bank bk).slot c = none) →
          (∀ r, (s.bank bk).erase = some r →
            kickBank bk s =
              if s.pins.pfail = true ∨ s.drain.restartPending = true then s
              else s.setBank bk { s.bank bk with
                erase := none
                state := .erase
                context := some { block := r.block, requester := r.requester, runningTime := 0
                                  eraseTimeout := s.mgmt.params.eraseTimeout, quantum := s.mgmt.params.eraseQuantum
                                  suspendLimit := s.mgmt.params.suspendLimit, suspendCount := 0
                                  quantumTimer := some s.mgmt.params.eraseQuantum, cause := .none
                                  powerHold := false } }) ∧
          ((s.bank bk).erase = none → kickBank bk s = s))) ∧
      (∀ c, (s.bank bk).state = .suspended → (s.bank bk).context = some c →
        (∀ h, (s.bank bk).hostRead = some h →
          ((kickBank bk s).bank bk).state = .suspended ∧ ((kickBank bk s).bank bk).context = some c ∧
          ((kickBank bk s).bank bk).active = some { cls := .host, act := .read h.slot h.offset 2 }) ∧
        ((s.bank bk).hostRead = none →
          (∀ k q, (s.bank bk).slot k = some q →
            (c.powerHold = true ∨ (q.op.isRead = true ∧ k ≠ .descriptor)) →
            (∀ k' q', (s.bank bk).slot k' = some q' → k' ≠ k →
              (c.powerHold = true ∨ (q'.op.isRead = true ∧ k' ≠ .descriptor)) → q.moment < q'.moment) →
            ((kickBank bk s).bank bk).state = .suspended ∧ ((kickBank bk s).bank bk).context = some c ∧
            ((kickBank bk s).bank bk).active = some { cls := k, act := q.op.action (s.flash bk) } ∧
            ((q.op.action (s.flash bk)).isProgram = true →
              ((kickBank bk s).bank bk).programTimer = some s.mgmt.params.programTimeout)) ∧
          (c.powerHold = true → (∀ k, (s.bank bk).slot k = none) → kickBank bk s = s)) ∧
        (c.powerHold = false → (s.bank bk).readWaits = false →
          kickBank bk s = s.setBank bk { s.bank bk with
            state := .erase
            context := some { c with cause := .none, quantumTimer := some c.quantum } })) ∧
      (∀ c, (s.bank bk).state = .erase → (s.bank bk).context = some c →
        kickBank bk s =
          if (s.bank bk).readWaits = true ∧ c.quantumTimer = none ∧ c.suspendCount < c.suspendLimit then
            s.setBank bk { s.bank bk with
              state := .suspending
              context := some { c with cause := .read }
              suspendTimer := some s.mgmt.params.programTimeout }
          else s) ∧
      ((s.bank bk).state = .read ∨ (s.bank bk).state = .program ∨ (s.bank bk).state = .suspending ∨
        (s.bank bk).state = .resetting → kickBank bk s = s))

/-! ## Power fail, drain and restart -/

/-- PFAIL becomes asserted. ACTIVE: a drain starts with return state ACTIVE, no entry GATHERING and a held write
refused (R154, R31). ACTIVE and DRAINING: DRAINED with the line asserted exactly when the drain is done, else DRAINING
(R154, R155, R157). UNFORMATTED: DRAINED with return state UNFORMATTED and the line asserted (R158), a program of an
abandoned format not waited for (the model's choice, log 33). MOUNTING and DRAINED: the state stays (R143, R158).
FORMATTING: the format is abandoned (R149). A running erase is suspended with cause POWER, and power hold is set on
every erase in progress (R111). -/
def Obligations.PfailAssertedStartsTheDrain : Prop :=
  ∀ s : State, s.pins.pfail = false → ∃ t, exec .pfailAsserted s = .next t ∧
    t.pins = { s.pins with pfail := true } ∧ t.flashA = s.flashA ∧ t.flashB = s.flashB ∧ t.pageMap = s.pageMap ∧
    (s.service.state = .active →
      t.drain.returnState = some .active ∧ t.drain.restartPending = s.drain.restartPending ∧
      (∀ i, (t.entry i).state ≠ .gathering) ∧
      ∀ c, s.port.state = .holding → s.port.cycle = some c → c.wait = .staging →
        t.port = (s.withDone c true none).port ∧ t.hasFlag .writeRefused = true) ∧
    (s.service.state = .draining →
      t.drain.returnState = s.drain.returnState ∧ t.drain.restartPending = s.drain.restartPending) ∧
    (s.service.state = .active ∨ s.service.state = .draining →
      (t.drainDone = true → t.service.state = .drained ∧ t.drain.line = true ∧
        (s.drain.line = false → t.hasFlag .drainDone = true)) ∧
      (t.drainDone = false → t.service.state = .draining ∧ t.drain.line = s.drain.line)) ∧
    (s.service.state = .unformatted →
      t.service.state = .drained ∧ t.drain.returnState = some .unformatted ∧ t.drain.line = true ∧
        (s.drain.line = false → t.hasFlag .drainDone = true)) ∧
    (s.service.state = .mounting ∨ s.service.state = .drained → t.service.state = s.service.state) ∧
    (∀ w, s.service.state = .formatting → s.engine = .format w →
      t.service.state = .formatting ∧ t.engine = .format { w with abandoned := true }) ∧
    (∀ bk c, (s.bank bk).context = some c →
      ((s.bank bk).state = .erase →
        (t.bank bk).state = .suspending ∧ (t.bank bk).context = some { c with cause := .power, powerHold := true } ∧
        (t.bank bk).suspendTimer = some s.mgmt.params.programTimeout) ∧
      ((s.bank bk).state = .suspending ∨ (s.bank bk).state = .suspended →
        (t.bank bk).state = (s.bank bk).state ∧ (t.bank bk).context = some { c with powerHold := true }))

/-- PFAIL is released (R156). The DRAINED line falls. DRAINED returns to ACTIVE or UNFORMATTED by its return state,
which becomes absent; with restart-pending set it makes the internal reset (R161). DRAINING: the row of R155 that now
applies is tested at once, commits at rest without restart-pending, and drain done with no erase in progress with it
(R155, R156). MOUNTING and FORMATTING go on as they are (R142, R159). Unless the part is reset, the power hold of
every erase in progress clears (R112). -/
def Obligations.PfailReleasedEndsTheDrain : Prop :=
  ∀ s : State, s.pins.pfail = true → ∃ t, exec .pfailReleased s = .next t ∧
    t.pins = { s.pins with pfail := false } ∧ t.drain.line = false ∧
    (s.service.state = .drained → s.drain.restartPending = false → s.drain.returnState = some .active →
      t.service.state = .active ∧ t.drain.returnState = none) ∧
    (s.service.state = .drained → s.drain.restartPending = false → s.drain.returnState = some .unformatted →
      t.service.state = .unformatted ∧ t.drain.returnState = none) ∧
    (s.service.state = .drained → s.drain.restartPending = true →
      t.service.state = .mounting ∧ t.drain.restartPending = false ∧ t.mgmt.flags = 0#16 ∧
        t.mgmt.params = s.mgmt.params) ∧
    (s.service.state = .draining → ∃ u, t = settle (if u.drainReady then completeDrain u else u) ∧
      u.service = { s.service with latch := u.service.latch } ∧ u.pins = t.pins ∧
      u.drain = { s.drain with line := false } ∧ u.pageMap = s.pageMap ∧ SameArrays s u ∧
      (s.moverIdle = false → u.staging = s.staging ∧ u.mover = s.mover) ∧
      (u.drainReady = false → t.service.state = .draining ∧ t.drain.returnState = s.drain.returnState) ∧
      (s.drain.restartPending = false →
        (s.commitsAtRest = true → t.service.state = .active ∧ t.drain.returnState = none) ∧
        (s.moverIdle = false → t.service.state = .draining)) ∧
      (s.drain.restartPending = true →
        (s.drainDone = true → (s.allBanks fun k => !k.eraseInProgress) = true →
          t.service.state = .mounting ∧ t.drain.restartPending = false) ∧
        ((s.allBanks fun k => !k.eraseInProgress) = false → t.service.state = .draining))) ∧
    (s.service.state = .mounting ∨ s.service.state = .formatting → t.service.state = s.service.state) ∧
    (s.drain.restartPending = false →
      ∀ bk c, (s.bank bk).context = some c → (s.bank bk).state = .suspending ∨ (s.bank bk).state = .suspended →
        ∃ c', (t.bank bk).context = some c' ∧ c'.powerHold = false ∧ c'.block = c.block ∧
          c'.suspendCount = c.suspendCount)

/-- DRAIN_FINISH: when the condition of R155's row holds, the drain ends by that row. PFAIL asserted: DRAINED with the
line asserted, DRAIN DONE at its rise (R153), and only the banks' choices besides. PFAIL released with restart-pending:
the internal reset (R161). PFAIL released without: ACTIVE, and the return state becomes absent (R156). While the
condition does not hold nothing happens (log 4). -/
def Obligations.DrainFinishFollowsItsRow : Prop :=
  ∀ s : State,
    (s.drainReady = true ↔ s.service.state = .draining ∧
      (if s.pins.pfail = true then s.drainDone = true
       else if s.drain.restartPending = true then
         s.drainDone = true ∧ (s.allBanks fun k => !k.eraseInProgress) = true
       else s.commitsAtRest = true)) ∧
    (s.drainReady = true →
      (s.pins.pfail = true → ∃ t, exec .drainFinish s = .next t ∧
        t = { (if s.drain.line then s else s.setFlag .drainDone) with
          service := { s.service with state := .drained }, drain := { s.drain with line := true }
          bankA := t.bankA, bankB := t.bankB }) ∧
      (s.pins.pfail = false → s.drain.restartPending = true → exec .drainFinish s = .next (internalReset s)) ∧
      (s.pins.pfail = false → s.drain.restartPending = false → ∃ t, exec .drainFinish s = .next t ∧
        t.service.state = .active ∧ t.drain = { s.drain with returnState := none })) ∧
    (s.drainReady = false → exec .drainFinish s = .next s)

/-! ## Mount and format -/

/-- The volume record's slot has been read (R136). Valid: the serial, L and the bank count are set from the record and
the scan of bank A begins with A1 (R137). Not valid: the mount ends UNFORMATTED with flags UNFORMATTED and MOUNT DONE,
the page map and the volume values as they were, and the serial set only from a readable record (R131). -/
def Obligations.VolumeRecordDecidesTheMount : Prop :=
  ∀ (s : State) (w : MountWork) (q : Request) (answer : ReadAnswer) (slot : SlotRef),
    s.engine = .mount w → w.a.phase = .record → s.bankA.volume = some q →
    q.op = .readSlot { block := 0, slot := 0 } →
    s.bankA.active = some { cls := .volume, act := .read slot 0 512 } →
    (let bytes := answerBytes answer s.flashA slot 0 512
     let pages := (halfAt bytes 4).toNat
     let readable : Prop := halfAt bytes 0 = 0x4C57#16 ∧ byteAt bytes 2 = 1#8
     let valid : Prop := readable ∧
       (s.service.strap = .two ∧ byteAt bytes 3 = 2#8 ∧ 256 ≤ pages ∧ pages ≤ 15621 ∨
        s.service.strap = .one ∧ byteAt bytes 3 = 1#8 ∧ 256 ≤ pages ∧ pages ≤ 7493)
     ∃ t, exec (.arrayReadDone .a answer) s = .next t ∧ t.pageMap = s.pageMap ∧
       (readable → t.service.serial = some (halfAt bytes 6)) ∧ (¬ readable → t.service.serial = s.service.serial) ∧
       (valid → t.service.state = s.service.state ∧ t.service.pages = some pages ∧
         t.service.bankCount = some (byteAt bytes 3).toNat ∧
         (∃ w', t.engine = .mount w' ∧ w'.valid = true ∧
           w'.a.phase = .scanning (dataBlocks s.service.strap .a)) ∧
         ∃ q', t.bankA.volume = some q' ∧ q'.op = .readSlot { block := 1, slot := 0 }) ∧
       (¬ valid → t.service.state = .unformatted ∧ t.service.pages = s.service.pages ∧ t.engine = .idle ∧
         t.hasFlag .unformatted = true ∧ t.hasFlag .mountDone = true))

/-- The mount's choice (R139): candidates are taken in order, the first of a page is its choice, a later one replaces
it when its version is newer, and every page without a candidate stays UNMAPPED; the repairs of losers and bad entries
then begin on each bank in scan order, or the bank's repairs have ended (R140). The command has no effect before the
scans of both banks have ended (log 4). -/
def Obligations.MountChoosesTheNewestCandidates : Prop :=
  (∀ (cands : List Candidate) (page : Nat),
    assocGet (chooseCandidates cands).1 page =
      (cands.filter fun c => c.page == page).foldl
        (fun acc c =>
          match acc with
          | none => some { slot := c.slot, version := c.version }
          | some m => if newer c.version m.version then some { slot := c.slot, version := c.version } else some m)
        none) ∧
  (∀ (s : State) (w : MountWork), s.engine = .mount w → w.valid = true → w.a.phase = .scanned →
    (w.b.phase = .scanned ∨ w.b.phase = .absent) →
    (let choice := chooseCandidates (w.a.candidates ++ w.b.candidates)
     let repairs := fun bk => sortByKey SlotRef.scanKey
       ((choice.2 ++ w.a.bad ++ w.b.bad).filter fun x => x.bank == bk)
     ∃ t w', exec .mountCandidateChoice s = .next t ∧ t.pageMap = choice.1 ∧ t.engine = .mount w' ∧
       w'.a.phase = (if repairs .a = [] then .ended else .repairing (repairs .a)) ∧
       w'.b.phase = (if w.b.phase = .absent then .absent
         else if repairs .b = [] then .ended else .repairing (repairs .b)) ∧
       (∀ x rest, repairs .a = x :: rest → ∃ q, t.bankA.volume = some q ∧ q.op = .mark x codeStale) ∧
       (∀ x rest, w.b.phase = .scanned → repairs .b = x :: rest →
         ∃ q, t.bankB.volume = some q ∧ q.op = .mark x codeStale) ∧
       SameArrays s t)) ∧
  (∀ s : State, s.choiceReady = false → exec .mountCandidateChoice s = .next s)

/-- The mount ends when the repairs of both banks have (R142): MOUNT DONE, MOUNT REPAIRED if a repair was requested,
and ACTIVE, or DRAINED with return state ACTIVE and the line asserted when PFAIL is; CAPACITY is added when the usable
slots exceed L by less than 381 (R89, R93). The command has no effect before the repairs have ended (log 4). -/
def Obligations.MountEndEntersService : Prop :=
  ∀ s : State,
    (∀ w, s.engine = .mount w → w.valid = true → w.a.phase = .ended →
      (w.b.phase = .ended ∨ w.b.phase = .absent) →
      ∃ t, exec .mountEnd s = .next t ∧ t.engine = .idle ∧ t.pageMap = s.pageMap ∧ SameArrays s t ∧
        t.hasFlag .mountDone = true ∧ (w.repaired = true → t.hasFlag .mountRepaired = true) ∧
        (s.pins.pfail = false → t.service.state = .active) ∧
        (s.pins.pfail = true → t.service.state = .drained ∧ t.drain.returnState = some .active ∧
          t.drain.line = true) ∧
        (t.service.latch.capacity = true ↔ s.service.latch.capacity = true ∨
          127 * (((w.a.found ++ w.b.found).filter fun r => r.cls != .retired).length : Int) - (s.capacity : Int) <
            381)) ∧
    (s.mountReady = false → exec .mountEnd s = .next s)

/-- FORMAT_BANK_START: with no erase in progress and an empty erase slot on the bank, the volume engine reads the
descriptor of the bank's first data block, A1 or, with two banks, B0 (R145; the empty volume slot is log 25's).
FORMAT_VOLUME_RECORD: when both banks have ended step 3, the record's halfword 1 is programmed first (R146, R147).
Each has no effect while its condition does not hold (log 4). -/
def Obligations.FormatStepsBegin : Prop :=
  ∀ s : State,
    (∀ w bk, s.engine = .format w → w.abandoned = false → (w.bank bk).phase = .notStarted →
      (w.banks = .two ∨ bk = .a) →
      (s.bank bk).eraseInProgress = false → (s.bank bk).erase = none → (s.bank bk).volume = none →
      ∃ t w', exec (.formatBankStart bk) s = .next t ∧ t.engine = .format w' ∧
        (w'.bank bk).phase = .reading (dataBlocks w.banks bk) ∧ SameArrays s t ∧
        ∃ q, (t.bank bk).volume = some q ∧ q.op = .readDescriptor (match bk with | .a => 1 | .b => 64)) ∧
    (∀ bk, s.formatStartReady bk = false → exec (.formatBankStart bk) s = .next s) ∧
    (∀ w, s.engine = .format w → w.abandoned = false → w.stage = .blocks → w.a.phase = .finished →
      (w.b.phase = .finished ∨ w.b.phase = .absent) →
      ∃ t, exec .formatVolumeRecord s = .next t ∧ t.engine = .format { w with stage := .record 1 } ∧
        SameArrays s t ∧
        ∃ q, t.bankA.volume = some q ∧
          q.op = .program { block := 0, slot := 0 } 1
            (halfOf 1#8 (match w.banks with | .one => 1#8 | .two => 2#8))) ∧
    (s.recordReady = false → exec .formatVolumeRecord s = .next s)

/-- The volume record is written halfword 1, 2, 3 and then the format mark, with L and a serial one greater than the
held one, or 1 (R147); when the mark's program passes, the volume values are set from the record and the state is
ACTIVE with FORMAT DONE (R148); when any fails, UNFORMATTED with FORMAT FAILED and the serial as it was (R147). -/
def Obligations.VolumeRecordIsWrittenMarkLast : Prop :=
  ∀ (s : State) (w : FormatWork),
    (∀ half next, (half, next) ∈ [((1 : Fin 256), (2 : Fin 256)), (2, 3), (3, 0)] →
      (formatRecordDone half true w s).engine = .format { w with stage := .record next } ∧
      ∃ q, (formatRecordDone half true w s).bankA.volume = some q ∧
        q.op = .program { block := 0, slot := 0 } next
          (if next = 2 then BitVec.ofNat 16 w.pages
           else if next = 3 then (match s.service.serial with | some n => n + 1#16 | none => 1#16)
           else 0x4C57#16)) ∧
    (formatRecordDone 0 true w s).service.state = .active ∧ (formatRecordDone 0 true w s).engine = .idle ∧
    (formatRecordDone 0 true w s).service.pages = some w.pages ∧
    (formatRecordDone 0 true w s).service.bankCount = some (match w.banks with | .one => 1 | .two => 2) ∧
    (formatRecordDone 0 true w s).service.serial =
      some (match s.service.serial with | some n => n + 1#16 | none => 1#16) ∧
    (formatRecordDone 0 true w s).pageMap = [] ∧ (formatRecordDone 0 true w s).hasFlag .formatDone = true ∧
    ∀ half, formatRecordDone half false w s =
      (({ s with engine := .idle, service := { s.service with state := .unformatted } } : State).setFlag .formatFailed)

/-- An abandoned format: with PFAIL asserted and the banks at rest the DRAINED line is asserted, DRAIN DONE at its rise
(R153, R159); with PFAIL released and no erase in progress the state is UNFORMATTED with FORMAT FAILED (R149), whether
or not a program has ended (the model's choice, log 33). Each has no effect while its condition does not hold
(log 4). -/
def Obligations.AbandonedFormatEnds : Prop :=
  ∀ s : State,
    (s.formatAbandoned = true → s.pins.pfail = true → s.banksAtRest = true →
      exec .formatDrainedAssert s =
        .next { (if s.drain.line then s else s.setFlag .drainDone) with drain := { s.drain with line := true } }) ∧
    ((s.formatAbandoned && s.pins.pfail && s.banksAtRest) = false → exec .formatDrainedAssert s = .next s) ∧
    (s.formatAbandoned = true → s.pins.pfail = false → (s.allBanks fun k => !k.eraseInProgress) = true →
      exec .formatAbandonEnd s =
        .next (({ s with engine := .idle, service := { s.service with state := .unformatted } } : State).setFlag
          .formatFailed)) ∧
    ((s.formatAbandoned && !s.pins.pfail && s.allBanks fun k => !k.eraseInProgress) = false →
      exec .formatAbandonEnd s = .next s)

/-! ## The management port -/

/-- SSEL asserted starts a frame when the receiver is IDLE and RESET is not asserted (R163, R167); SSEL deasserted
ends it: FRAME ERROR for a part of a command byte or for missing argument bytes, nothing for an empty frame or one in
RESPONSE, and in every case the receiver is IDLE and SDO at high impedance (R165). -/
def Obligations.FramesStartAndEnd : Prop :=
  ∀ s : State,
    (s.pins.ssel = false → s.port.state ≠ .inReset → s.mgmt.receiver.state = .idle →
      exec .frameStart s = .next (({ s with pins := { s.pins with ssel := true } } : State).setReceiver
        { state := .command, bits := [], cmd := none, args := [], response := [], shifted := 0 })) ∧
    (s.pins.ssel = false → s.port.state = .inReset →
      exec .frameStart s = .next { s with pins := { s.pins with ssel := true } }) ∧
    (let u := ({ s with pins := { s.pins with ssel := false } } : State).setReceiver
        { state := .idle, bits := [], cmd := none, args := [], response := [], shifted := 0 }
     ((s.mgmt.receiver.state = .command ∧ s.mgmt.receiver.bits ≠ []) ∨ s.mgmt.receiver.state = .arguments →
       exec .frameEnd s = .next (u.setFlag .frameError)) ∧
     ((s.mgmt.receiver.state = .command ∧ s.mgmt.receiver.bits = []) ∨ s.mgmt.receiver.state = .response ∨
         s.mgmt.receiver.state = .idle →
       exec .frameEnd s = .next u) ∧
     u.mgmt.receiver.state = .idle ∧ u.sdo = none)

/-- SCK is not counted in IDLE, samples SDI into the byte in progress in COMMAND and ARGUMENTS, and in RESPONSE only
reads out the response (R163). An unknown command byte is answered UNKNOWN (R166). IDENTIFY, READ FLAGS, READ PARAM and
READ COUNTER answer with the part code and revision, the flag word with bits 14 and 15 reading 0, the parameter's value,
and the counter's value most significant byte first; an id that names nothing is BAD ARG (R168, R169, R174, R177, R180,
R182). Nothing but the receiver changes. -/
def Obligations.ReadingCommandsAnswer : Prop :=
  (∀ (s : State) (bit : Bool) (code : Byte),
    (s.mgmt.receiver.state = .idle → exec (.sckRisingEdge bit) s = .next s) ∧
    (s.mgmt.receiver.state = .response →
      exec (.sckRisingEdge bit) s =
        .next (s.setReceiver { s.mgmt.receiver with shifted := s.mgmt.receiver.shifted + 1 })) ∧
    (s.mgmt.receiver.state = .command ∨ s.mgmt.receiver.state = .arguments → s.mgmt.receiver.bits.length < 7 →
      exec (.sckRisingEdge bit) s =
        .next (s.setReceiver { s.mgmt.receiver with bits := s.mgmt.receiver.bits ++ [bit] })) ∧
    (s.frameAllows code [] → code.toNat = 0 ∨ 15 < code.toNat →
      exec (.unknownCommand code) s = .next (s.answered code [] [0x03#8]))) ∧
  (∀ (s : State) (id : Byte),
    (s.frameAllows 0x01#8 [] →
      exec .identify s = .next (s.answered 0x01#8 [] [0x00#8, 0x57#8, 0x32#8, 0x00#8, 0x01#8])) ∧
    (s.frameAllows 0x03#8 [] →
      exec .readFlags s = .next (s.answered 0x03#8 []
        [0x00#8, ((s.mgmt.flags &&& 0x3FFF#16) >>> 8).setWidth 8, s.mgmt.flags.setWidth 8])) ∧
    (s.frameAllows 0x06#8 [id] →
      (∀ v, s.mgmt.params.get id.toNat = some v →
        exec (.readParam id) s =
          .next (s.answered 0x06#8 [id] [0x00#8, BitVec.ofNat 8 (v / 256), BitVec.ofNat 8 v])) ∧
      (id.toNat = 0 ∨ 10 < id.toNat → exec (.readParam id) s = .next (s.answered 0x06#8 [id] [0x02#8]))) ∧
    (s.frameAllows 0x0E#8 [id] →
      (∀ c : Counter, c.id.val = id.toNat →
        exec (.readCounter id) s = .next (s.answered 0x0E#8 [id]
          [0x00#8, (s.counter c >>> 24).setWidth 8, (s.counter c >>> 16).setWidth 8,
           (s.counter c >>> 8).setWidth 8, (s.counter c).setWidth 8])) ∧
      (9 < id.toNat → exec (.readCounter id) s = .next (s.answered 0x0E#8 [id] [0x02#8]))))

/-- A frame clocked in bit by bit, most significant bit first, has the effect of its command's own row: the two ways
the table names the same taking agree, for every management command (R163, R164; log 12). -/
def Obligations.ClockedFramesEqualTheirCommands : Prop :=
  ∀ (c : Instr) (code : Byte) (args : List Byte) (s : State), commandFrame c = some (code, args) →
    s.mgmt.receiver.state = .command → s.mgmt.receiver.bits = [] → s.mgmt.receiver.cmd = none →
    s.mgmt.receiver.args = [] →
    execAll ((bitsOf code ++ args.flatMap bitsOf).map Instr.sckRisingEdge) s = exec c s

/-- STATUS answers with 16 bytes of the part as it stands, bank B's state Fh with one bank, FFh for an absent victim or
open block (R169, R182). QUERY PAGE answers the map entry, its version and the page's staging counts, BUSY without a
volume and BAD ARG at or above L; QUERY BLOCK answers the block record, or FFh and zeros when none is held, BUSY in
FORMATTING, and BAD ARG for a reference that names no data block (R168, R170, R171, R182). Nothing but the receiver
changes. -/
def Obligations.StatusAndQueriesAnswer : Prop :=
  (∀ s : State, s.frameAllows 0x02#8 [] →
    exec .status s = .next (s.answered 0x02#8 []
      [ 0x00#8,
        s.service.state.code,
        (if s.service.latch.capacity then 1#8 else 0#8) ||| (if s.service.latch.commitStuck then 2#8 else 0#8) |||
          (if s.service.latch.reclaimHalted then 4#8 else 0#8),
        BitVec.ofNat 8 (s.recordsIn .free).length,
        BitVec.ofNat 8 s.blocks.eraseQueue.length,
        BitVec.ofNat 8 (s.countEntries fun e => e.state == .gathering),
        BitVec.ofNat 8 (s.countEntries fun e => e.state == .closed),
        BitVec.ofNat 8 (s.countEntries fun e => e.state == .committing),
        BitVec.ofNat 8 (s.countEntries fun e => e.state == .stuck),
        BitVec.ofNat 8 (s.recordsIn .retired).length,
        s.blocks.reclaim.code,
        (match s.blocks.victim with | some b => BitVec.ofNat 8 b.val | none => 0xFF#8),
        s.bankA.state.code ++ (if s.service.strap = .two then s.bankB.state.code else 0xF#4),
        BitVec.ofNat 8 (s.capacity / 256),
        BitVec.ofNat 8 s.capacity,
        (match s.blocks.openBlock with | some (b, _) => BitVec.ofNat 8 b.val | none => 0xFF#8),
        (match s.blocks.openBlock with | some (_, n) => BitVec.ofNat 8 n | none => 0x00#8) ])) ∧
  (∀ s : State,
    (∀ lpn : BitVec 16, s.frameAllows 0x0C#8 (argWord lpn) →
      (let count := fun (st : EntryState) =>
         BitVec.ofNat 8 (s.countEntries fun e => e.state == st && e.page == some lpn.toNat)
       let counts : List Byte := [count .gathering, count .closed, count .committing, count .stuck]
       (s.volumeMounted = false →
         exec (.queryPage lpn) s = .next (s.answered 0x0C#8 (argWord lpn) [0x01#8])) ∧
       (s.volumeMounted = true → s.capacity ≤ lpn.toNat →
         exec (.queryPage lpn) s = .next (s.answered 0x0C#8 (argWord lpn) [0x02#8])) ∧
       (s.volumeMounted = true → lpn.toNat < s.capacity →
         (∀ m, s.mapped lpn.toNat = some m →
           exec (.queryPage lpn) s = .next (s.answered 0x0C#8 (argWord lpn)
             ([0x00#8, BitVec.ofNat 8 m.slot.block.val, BitVec.ofNat 8 m.slot.slot.val,
               BitVec.ofNat 8 (m.version.toNat / 256), BitVec.ofNat 8 m.version.toNat] ++ counts))) ∧
         (s.mapped lpn.toNat = none →
           exec (.queryPage lpn) s = .next (s.answered 0x0C#8 (argWord lpn)
             ([0x00#8, 0xFF#8, 0x00#8, 0x00#8, 0x00#8] ++ counts)))))) ∧
    (∀ bank index : Byte, s.frameAllows 0x0D#8 [bank, index] →
      (s.service.state = .formatting →
        exec (.queryBlock bank index) s = .next (s.answered 0x0D#8 [bank, index] [0x01#8])) ∧
      (s.service.state ≠ .formatting →
        (1 < bank.toNat ∨ 63 < index.toNat ∨ (bank = 0#8 ∧ index = 0#8) ∨ (bank = 1#8 ∧ s.service.strap = .one) →
          exec (.queryBlock bank index) s = .next (s.answered 0x0D#8 [bank, index] [0x02#8])) ∧
        (∀ b : BlockRef, bank.toNat ≤ 1 → index.toNat ≤ 63 → b.val = 64 * bank.toNat + index.toNat → b ≠ 0 →
          (bank = 1#8 → s.service.strap = .two) →
          (∀ r, s.record b = some r →
            exec (.queryBlock bank index) s = .next (s.answered 0x0D#8 [bank, index]
              [0x00#8, r.state.code, BitVec.ofNat 8 (r.eraseCount / 65536), BitVec.ofNat 8 (r.eraseCount / 256),
               BitVec.ofNat 8 r.eraseCount, BitVec.ofNat 8 r.claimed, BitVec.ofNat 8 r.live,
               if r.condemned then 1#8 else 0#8])) ∧
          (s.record b = none →
            exec (.queryBlock bank index) s = .next (s.answered 0x0D#8 [bank, index]
              [0x00#8, 0xFF#8, 0x00#8, 0x00#8, 0x00#8, 0x00#8, 0x00#8, 0x00#8]))))))

/-- CLEAR FLAGS clears exactly the flags under its mask (R177); SET ALERT MASK replaces the mask whole (R178); CLEAR
COUNTERS sets all ten counters to 0 (R180). Each is answered OK and changes nothing else. ALERT is asserted exactly
while a flag is set whose mask bit is set (R178). -/
def Obligations.ClearingCommandsAct : Prop :=
  ∀ (s : State) (mask : BitVec 16),
    (s.frameAllows 0x04#8 (argWord mask) → ∃ t, exec (.clearFlags mask) s = .next t ∧
      t = ({ s with mgmt := { s.mgmt with flags := t.mgmt.flags } } : State).answered 0x04#8 (argWord mask) [0x00#8] ∧
      ∀ f : Flag, t.hasFlag f = (s.hasFlag f && !mask.getLsbD f.bit)) ∧
    (s.frameAllows 0x05#8 (argWord mask) →
      exec (.setAlertMask mask) s =
        .next (({ s with mgmt := { s.mgmt with alertMask := mask } } : State).answered 0x05#8 (argWord mask)
          [0x00#8])) ∧
    (s.frameAllows 0x0F#8 [] → ∃ t, exec .clearCounters s = .next t ∧
      t = ({ s with mgmt := { s.mgmt with counters := t.mgmt.counters } } : State).answered 0x0F#8 [] [0x00#8] ∧
      ∀ c : Counter, t.counter c = 0#32) ∧
    (s.alert = true ↔ ∃ f : Flag, s.hasFlag f = true ∧ s.mgmt.alertMask.getLsbD f.bit = true)

/-- WRITE PARAM within the parameter's range sets that parameter and no other, answered OK; an unknown id or a value
outside the range is BAD ARG and changes nothing (R168, R173, R174). A write of the reclaim threshold or the wear limit
is a trigger evaluation (R91, R175); a write of any other parameter changes nothing else. -/
def Obligations.WriteParamSetsOneParameter : Prop :=
  ∀ (s : State) (id : Byte) (v : BitVec 16), s.frameAllows 0x07#8 (id :: argWord v) →
    (let args := id :: argWord v
     let ranges : List (Nat × Nat × Nat) :=
       [(1, 0, 65535), (2, 1, 1000), (3, 1, 65535), (4, 0, 1), (5, 3, 8), (6, 16, 65535), (7, 100, 65535),
        (8, 0, 255), (9, 10, 2000), (10, 100, 10000)]
     (∀ lo hi, (id.toNat, lo, hi) ∈ ranges → lo ≤ v.toNat → v.toNat ≤ hi →
       ∃ t, exec (.writeParam id v) s = .next t ∧ t.mgmt.receiver.response = [0x00#8] ∧
         t.mgmt.params.get id.toNat = some v.toNat ∧
         (∀ other, other ≠ id.toNat → t.mgmt.params.get other = s.mgmt.params.get other) ∧
         (id.toNat ≠ 5 → id.toNat ≠ 6 →
           t = ({ s with mgmt := { s.mgmt with params := t.mgmt.params } } : State).answered 0x07#8 args [0x00#8]) ∧
         (id.toNat = 5 ∨ id.toNat = 6 →
           t = (settle (evaluateTriggers { s with mgmt := { s.mgmt with params := t.mgmt.params } })).answered 0x07#8
             args [0x00#8])) ∧
     ((∀ lo hi, (id.toNat, lo, hi) ∈ ranges → ¬ (lo ≤ v.toNat ∧ v.toNat ≤ hi)) →
       exec (.writeParam id v) s = .next (s.answered 0x07#8 args [0x02#8])))

/-- FLUSH in ACTIVE marks every entry that is not EMPTY, closes every GATHERING entry in ascending order of opening,
and sets FLUSH DONE at once when no entry is marked; in any other state it is BUSY and changes nothing (R44, R168). -/
def Obligations.FlushMarksAndCloses : Prop :=
  ∀ s : State, s.frameAllows 0x08#8 [] →
    (s.service.state = .active → ∃ u, exec .flush s = .next ((settle u).answered 0x08#8 [] [0x00#8]) ∧
      (∀ i, u.entry i = { s.entry i with
        cohort := (s.entry i).cohort || (s.entry i).state != .empty
        state := if (s.entry i).state = .gathering then .closed else (s.entry i).state
        idle := if (s.entry i).state = .gathering then none else (s.entry i).idle
        age := if (s.entry i).state = .gathering then none else (s.entry i).age }) ∧
      u.staging.queue = s.staging.queue ++ s.gatheringInOrder ∧
      (u.mgmt.flags = if ∀ i, (u.entry i).cohort = false then s.mgmt.flags ||| 0x0020#16 else s.mgmt.flags) ∧
      u = { s with staging := u.staging, mgmt := { s.mgmt with flags := u.mgmt.flags } }) ∧
    (s.service.state ≠ .active → exec .flush s = .next (s.answered 0x08#8 [] [0x01#8]))

/-- RESUME COMMIT in ACTIVE with COMMIT STUCK present: the STUCK entry is CLOSED at the head of the queue with attempt
count 0, COMMIT STUCK is removed and reserve hold clears, and nothing else changes before the arbiter grants (R41,
R69); otherwise BUSY and nothing changes (R168). -/
def Obligations.ResumeCommitRequeuesTheStuckEntry : Prop :=
  ∀ s : State, s.frameAllows 0x09#8 [] →
    (∀ i, s.service.state = .active → s.service.latch.commitStuck = true → (s.entry i).state = .stuck →
      (∀ j, (s.entry j).state = .stuck → j = i) →
      (let u := (s.setEntry i { s.entry i with state := .closed, attempts := 0 }).setQueue (i :: s.staging.queue)
       exec .resumeCommit s = .next ((settle { u with
         service := { s.service with latch := { s.service.latch with commitStuck := false } }
         mover := { s.mover with reserveHold := false } }).answered 0x09#8 [] [0x00#8]))) ∧
    (s.service.state ≠ .active ∨ s.service.latch.commitStuck = false →
      exec .resumeCommit s = .next (s.answered 0x09#8 [] [0x01#8]))

/-- FORMAT is BUSY unless UNFORMATTED, or ACTIVE with every entry EMPTY and the mover idle; then BAD ARG for L outside
the strap's range; then, in one step, the state is FORMATTING, the latch is clear, L and the bank count are absent, the
map is all UNMAPPED, the block table and the mover take their reset values and the volume engine keeps L and the strap
(R144, R168). -/
def Obligations.FormatBegins : Prop :=
  ∀ (s : State) (pages : BitVec 16), s.frameAllows 0x0A#8 (argWord pages) →
    (let admitted : Prop := s.service.state = .unformatted ∨
       (s.service.state = .active ∧ (∀ i, (s.entry i).state = .empty) ∧ s.mover.activity = .idle)
     let max := if s.service.strap = .two then 15621 else 7493
     (¬ admitted → exec (.format pages) s = .next (s.answered 0x0A#8 (argWord pages) [0x01#8])) ∧
     (admitted → pages.toNat < 256 ∨ max < pages.toNat →
       exec (.format pages) s = .next (s.answered 0x0A#8 (argWord pages) [0x02#8])) ∧
     (admitted → 256 ≤ pages.toNat → pages.toNat ≤ max → ∃ w,
       exec (.format pages) s = .next (({ s with
         service := { s.service with
           state := .formatting
           latch := { capacity := false, commitStuck := false, reclaimHalted := false }
           pages := none, bankCount := none }
         pageMap := []
         blocks := { records := [], openBlock := none, reclaim := .none, victim := none, scanPos := 1,
                     eraseQueue := [], awaiting := none }
         mover := { activity := .idle, buffer := s.mover.buffer, lastGrant := .none, reserveHold := false }
         engine := .format w } : State).answered 0x0A#8 (argWord pages) [0x00#8]) ∧
       w.pages = pages.toNat ∧ w.banks = s.service.strap ∧ w.abandoned = false ∧ w.stage = .reading ∧
       w.a.phase = .notStarted ∧ w.b.phase = (if s.service.strap = .two then .notStarted else .absent)))

/-- RESTART (R160): in ACTIVE a restart drain starts, with the GATHERING entries closed in order, no staged byte or
mark changed, a held write refused and reserve hold clear (R154); in UNFORMATTED the internal reset is made in the
same step (R161, R167); in DRAINED restart-pending is set; in DRAINING it is set and the drain goes on, or ends if the
condition now applying holds (R155); BUSY elsewhere. That a restart drain begun in ACTIVE ends at its own DRAIN_FINISH
is log 4's. -/
def Obligations.RestartFollowsTheServiceState : Prop :=
  ∀ s : State, s.frameAllows 0x0B#8 [] →
    (s.service.state = .active → ∃ u, exec .restart s = .next ((settle u).answered 0x0B#8 [] [0x00#8]) ∧
      u.service = { s.service with state := .draining } ∧
      u.drain = { s.drain with restartPending := true, returnState := some .active } ∧
      u.mover = { s.mover with reserveHold := false } ∧
      u.staging.queue = s.staging.queue ++ s.gatheringInOrder ∧ u.staging.nextOpen = s.staging.nextOpen ∧
      (∀ i, u.entry i = { s.entry i with
        state := if (s.entry i).state = .gathering then .closed else (s.entry i).state
        idle := if (s.entry i).state = .gathering then none else (s.entry i).idle
        age := if (s.entry i).state = .gathering then none else (s.entry i).age }) ∧
      (s.waiting .staging = none → u.port = s.port ∧ u.mgmt = s.mgmt) ∧
      (∀ x, s.waiting .staging = some x →
        u.port = (s.withDone x true none).port ∧ u.mgmt = (s.setFlag .writeRefused).mgmt) ∧
      u.pageMap = s.pageMap ∧ u.pins = s.pins ∧
      u.bankA = s.bankA ∧ u.bankB = s.bankB ∧ u.blocks = s.blocks) ∧
    (s.service.state = .unformatted → exec .restart s = .next ((internalReset s).answered 0x0B#8 [] [0x00#8])) ∧
    (s.service.state = .drained →
      exec .restart s =
        .next (({ s with drain := { s.drain with restartPending := true } } : State).answered 0x0B#8 [] [0x00#8])) ∧
    (s.service.state = .draining →
      (let u : State := { s with drain := { s.drain with restartPending := true } }
       exec .restart s = .next ((if u.drainReady then completeDrain u else u).answered 0x0B#8 [] [0x00#8]))) ∧
    (s.service.state = .mounting ∨ s.service.state = .formatting →
      exec .restart s = .next (s.answered 0x0B#8 [] [0x01#8]))

/-! ## The page mover, the page map and the block manager -/

/-- The arbiter's grant (R50): the reclaim source while the victim is condemned with live pages; the only source that
waits; else the two in turn by last grant; and each grant is noted as the last one. -/
def Obligations.ArbiterGrantsByTheFirstCase : Prop :=
  ∀ s : State,
    (s.commitWaits = false → s.reclaimWaits = false → s.granted = .none) ∧
    (∀ v r, s.reclaimWaits = true → s.blocks.victim = some v → s.record v = some r → r.condemned = true →
      0 < r.live → s.granted = .move) ∧
    (s.commitWaits = true → s.reclaimWaits = false → s.granted = .commit) ∧
    (s.commitWaits = false → s.reclaimWaits = true → s.granted = .move) ∧
    (∀ v r, s.commitWaits = true → s.reclaimWaits = true → s.blocks.victim = some v → s.record v = some r →
      ¬ (r.condemned = true ∧ 0 < r.live) →
      (s.mover.lastGrant = .commit → s.granted = .move) ∧
      (s.mover.lastGrant = .move ∨ s.mover.lastGrant = .none → s.granted = .commit)) ∧
    (s.moverIdle = true → s.granted ≠ .none → (grantOnce s).mover.lastGrant = s.granted) ∧
    (s.moverIdle = true → s.granted = .none → settle s = kickBanks s) ∧
    (s.moverIdle = false → settle s = kickBanks s)

/-- A commit is silent when every covered byte equals the mover buffer's (R15, R54): it asks nothing of any bank,
changes no map entry and no block record, counts one SILENT COMMIT, and its entry becomes EMPTY; FLUSH DONE is set
when the last marked entry does (R45). -/
def Obligations.SilentCommitsProgramNothing : Prop :=
  ∀ (s : State) (r : OpRecord) (i : Fin 8) (policy : Bool), r.kind = .commit i policy →
    (∀ o b, (o, b) ∈ (s.entry i).staged → b = s.mover.buffer.getD o 0xFF#8) → s.waiting .staging = none →
    ∃ t, decideCommit r i s = t ∧
      t = { s with
        staging := t.staging
        mover := { s.mover with activity := .idle }
        mgmt := { s.mgmt with counters := t.mgmt.counters, flags := t.mgmt.flags } } ∧
      (t.entry i).state = .empty ∧ (∀ j, j ≠ i → t.entry j = s.entry j) ∧ t.staging.queue = s.staging.queue ∧
      t.counter .silentCommits = saturatingSucc (s.counter .silentCommits) ∧
      (t.hasFlag .flushDone = true ↔ s.hasFlag .flushDone = true ∨
        ((s.entry i).cohort = true ∧ ∀ j, j ≠ i → (s.entry j).cohort = false))

/-- Versions (R7): a is newer than b when (a − b) mod 4096 lies in 1 to 2047; of two distinct versions at most one is
newer; two are tied exactly when equal or 2048 apart; and of two VALID copies of a page the mount's choice takes the
newer, or when tied the first in the list of candidates. The key of scan order is by block reference, then by slot
number. -/
def Obligations.NewerVersionsAreChosen : Prop :=
  (∀ a b : Version, newer a b = true ↔
    1 ≤ (a.toNat + 4096 - b.toNat) % 4096 ∧ (a.toNat + 4096 - b.toNat) % 4096 ≤ 2047) ∧
  (∀ a b : Version, a ≠ b → ¬ (newer a b = true ∧ newer b a = true)) ∧
  (∀ a b : Version, (newer a b = false ∧ newer b a = false) ↔
    (a = b ∨ (a.toNat + 4096 - b.toNat) % 4096 = 2048)) ∧
  (∀ (x y : SlotRef) (page : Nat) (a b : Version),
    assocGet (chooseCandidates [{ slot := x, page := page, version := a },
                                { slot := y, page := page, version := b }]).1 page =
      some (if newer b a then { slot := y, version := b } else { slot := x, version := a })) ∧
  (∀ x y : SlotRef, x.scanKey < y.scanKey ↔ x.block < y.block ∨ (x.block = y.block ∧ x.slot < y.slot))

/-- A trigger evaluation chooses nothing outside ACTIVE, with a victim, or under RECLAIM HALTED (R79); else it takes
the lowest condemned FULL block (R80), or with F at or below the threshold the FULL block below 127 live with the
fewest live, then the lowest count, then the lowest reference (R81), or with F above it the FULL block of the lowest
count when that lies more than the wear limit below another block's (R82); the chosen block becomes the victim with
scan position 1 (R83), and no victim is chosen when none of the three triggers holds (R79). Leaving out the block that
awaits its slot 127's page is log 19's. -/
def Obligations.TriggersChooseTheVictim : Prop :=
  ∀ s : State,
    ((s.service.state ≠ .active ∨ s.blocks.victim ≠ none ∨ s.service.latch.reclaimHalted = true) →
      evaluateTriggers s = s) ∧
    (s.service.state = .active → s.blocks.victim = none → s.service.latch.reclaimHalted = false →
      (s.triggered = none → evaluateTriggers s = s) ∧
      (∀ kind b r, s.triggered = some (kind, b) → s.record b = some r →
        (evaluateTriggers s).blocks.victim = some b ∧ (evaluateTriggers s).blocks.reclaim = kind ∧
        (evaluateTriggers s).blocks.scanPos = 1 ∧
        (evaluateTriggers s).record b = some { r with state := .victim } ∧
        (∀ b', b' ≠ b → (evaluateTriggers s).record b' = s.record b'))) ∧
    (∀ p, p ∈ s.fullBlocks → p.2.condemned = true →
      ∃ b, s.triggered = some (.condemned, b) ∧ b ≤ p.1 ∧ ∃ r, (b, r) ∈ s.fullBlocks ∧ r.condemned = true) ∧
    ((∀ q ∈ s.fullBlocks, q.2.condemned = false) →
      ((s.recordsIn .free).length ≤ s.mgmt.params.reclaimThreshold →
        ∀ p, p ∈ s.fullBlocks → p.2.live < 127 → (∀ q ∈ s.blocks.records, q.2.eraseCount ≤ 16777215) →
          ∃ b r, s.triggered = some (.space, b) ∧ (b, r) ∈ s.fullBlocks ∧ r.live < 127 ∧
            (r.live < p.2.live ∨ (r.live = p.2.live ∧
              (r.eraseCount < p.2.eraseCount ∨ (r.eraseCount = p.2.eraseCount ∧ b ≤ p.1))))) ∧
      (s.mgmt.params.reclaimThreshold < (s.recordsIn .free).length →
        ∀ p m, p ∈ s.fullBlocks →
          (∀ q ∈ s.fullBlocks, q ≠ p → p.2.eraseCount < q.2.eraseCount ∨
            (p.2.eraseCount = q.2.eraseCount ∧ p.1 < q.1)) →
          m ∈ s.blocks.records → m.2.state ≠ .retired → s.mgmt.params.wearLimit < m.2.eraseCount - p.2.eraseCount →
          s.triggered = some (.levelling, p.1)) ∧
      ((s.recordsIn .free).length ≤ s.mgmt.params.reclaimThreshold → (∀ q ∈ s.fullBlocks, 127 ≤ q.2.live) →
        s.triggered = none) ∧
      (s.mgmt.params.reclaimThreshold < (s.recordsIn .free).length →
        (∀ p ∈ s.fullBlocks, ∀ m ∈ s.blocks.records, m.2.state ≠ .retired →
          m.2.eraseCount - p.2.eraseCount ≤ s.mgmt.params.wearLimit) →
        s.triggered = none)) ∧
    (∀ p, p ∈ s.fullBlocks ↔ p ∈ s.blocks.records ∧ p.2.state = .full ∧ s.blocks.awaiting ≠ some p.1)

/-- A slot request (R19 to R22, R75): the open block gives its next slot, in ascending order, and at slot 127 it is
FULL with no open block and awaits that slot's page, in ACTIVE too. With none open, a request that may take a block
(R21) takes the first free block by erase count, then reference, of a bank with no ERASING block, or the first of all
when every free block's bank has one (R20): it is OPEN with claimed count 0 and next slot 1, reserve hold clears
(R52), and its IN USE program is handed to its bank (R22). A host commit in ACTIVE with fewer than 3 free blocks, and
any request with an empty pool, is refused and changes nothing. -/
def Obligations.SlotRequestsTakeInOrder : Prop :=
  ∀ (s : State) (q : Requester),
    (∀ b n r, s.blocks.openBlock = some (b, n) → n ≤ 127 → s.record b = some r →
      (slotRequest q s).1 = .slot { block := b, slot := Fin.ofNat 128 n } ∧
      (n < 127 → (slotRequest q s).2.blocks.openBlock = some (b, n + 1) ∧
        (slotRequest q s).2.record b = some { r with claimed := n }) ∧
      (n = 127 →
        (slotRequest q s).2.blocks.openBlock = none ∧ (slotRequest q s).2.blocks.awaiting = some b ∧
        (slotRequest q s).2.record b = some { r with claimed := 127, state := .full })) ∧
    (∀ b r, s.blocks.openBlock = none → (b, r) ∈ s.recordsIn .free → s.record b = some r →
      (q = .hostCommit → s.service.state ≠ .draining → 3 ≤ (s.recordsIn .free).length) →
      (let erasing := fun (x : BlockRef) => ∃ p ∈ s.blocks.records, p.2.state = .erasing ∧
         BlockRef.bank p.1 = BlockRef.bank x
       (¬ erasing b ∨ ∀ p ∈ s.recordsIn .free, erasing p.1) →
       (∀ p ∈ s.recordsIn .free, p ≠ (b, r) → (erasing b ∨ ¬ erasing p.1) →
         r.eraseCount < p.2.eraseCount ∨ (r.eraseCount = p.2.eraseCount ∧ b < p.1)) →
       (slotRequest q s).1 = .inUse ∧ (slotRequest q s).2.blocks.openBlock = some (b, 1) ∧
       (slotRequest q s).2.record b = some { r with state := .opened, claimed := 0 } ∧
       (slotRequest q s).2.mover = { s.mover with reserveHold := false } ∧
       ∃ w, ((slotRequest q s).2.bank (BlockRef.bank b)).mover = some w ∧
         w.op = .descriptor b (.inUse (BitVec.ofNat 8 r.eraseCount))
           (.write 0 (halfOf 0x3F#8 (BitVec.ofNat 8 r.eraseCount)) []))) ∧
    (s.blocks.openBlock = none → s.service.state ≠ .draining → (s.recordsIn .free).length < 3 →
      slotRequest .hostCommit s = (.refused, s)) ∧
    (s.blocks.openBlock = none → (s.recordsIn .free) = [] → slotRequest q s = (.refused, s))

/-- The latch takes a cause (R133): with the latch clear the cause becomes present, READ ONLY is set, and in ACTIVE
every GATHERING entry closes and a held write is refused; with it set only the cause becomes present, and a cause that
is present already changes nothing; and two causes handed together give the same outcome in either order. -/
def Obligations.LatchTakesItsFirstCause : Prop :=
  ∀ (s : State) (c d : Cause),
    (addCause c s).service = { s.service with latch := s.service.latch.add c } ∧
    (s.service.latch.isSet = true →
      addCause c s = { s with service := { s.service with latch := s.service.latch.add c } }) ∧
    (s.service.latch.has c = true → addCause c s = s) ∧
    (s.service.latch.isSet = false → (addCause c s).hasFlag .readOnly = true ∧
      (s.service.state = .active →
        (∀ i, ((addCause c s).entry i).state =
          if (s.entry i).state = .gathering then .closed else (s.entry i).state) ∧
        (addCause c s).staging.queue = s.staging.queue ++ s.gatheringInOrder ∧
        ∀ x, s.waiting .staging = some x →
          (addCause c s).port = (s.withDone x true none).port ∧ (addCause c s).hasFlag .writeRefused = true) ∧
      (s.service.state ≠ .active →
        (addCause c s).staging = s.staging ∧ (addCause c s).port = s.port)) ∧
    addCause c (addCause d s) = addCause d (addCause c s)
end

