-- ==== Sys2Proof/Laws/State.lean ====
section
/-! SUPPORT. One lemma per field per named update of State: what the update sets, and that it leaves every other field
alone. -/

-- In order: as one text the package would otherwise start more threads than memory has stacks for.
set_option Elab.async false
set_option linter.all false

namespace Sys2Proof.Machine

@[simp] theorem withPending_pins (s : State) (q : List Instr) : (s.withPending q).pins = s.pins := rfl
@[simp] theorem withPending_service (s : State) (q : List Instr) : (s.withPending q).service = s.service := rfl
@[simp] theorem withPending_drain (s : State) (q : List Instr) : (s.withPending q).drain = s.drain := rfl
@[simp] theorem withPending_port (s : State) (q : List Instr) : (s.withPending q).port = s.port := rfl
@[simp] theorem withPending_staging (s : State) (q : List Instr) : (s.withPending q).staging = s.staging := rfl
@[simp] theorem withPending_pageMap (s : State) (q : List Instr) : (s.withPending q).pageMap = s.pageMap := rfl
@[simp] theorem withPending_mover (s : State) (q : List Instr) : (s.withPending q).mover = s.mover := rfl
@[simp] theorem withPending_blocks (s : State) (q : List Instr) : (s.withPending q).blocks = s.blocks := rfl
@[simp] theorem withPending_bankA (s : State) (q : List Instr) : (s.withPending q).bankA = s.bankA := rfl
@[simp] theorem withPending_bankB (s : State) (q : List Instr) : (s.withPending q).bankB = s.bankB := rfl
@[simp] theorem withPending_flashA (s : State) (q : List Instr) : (s.withPending q).flashA = s.flashA := rfl
@[simp] theorem withPending_flashB (s : State) (q : List Instr) : (s.withPending q).flashB = s.flashB := rfl
@[simp] theorem withPending_engine (s : State) (q : List Instr) : (s.withPending q).engine = s.engine := rfl
@[simp] theorem withPending_mgmt (s : State) (q : List Instr) : (s.withPending q).mgmt = s.mgmt := rfl
@[simp] theorem withPending_now (s : State) (q : List Instr) : (s.withPending q).now = s.now := rfl
@[simp] theorem withPending_freeNext (s : State) (q : List Instr) : (s.withPending q).freeNext = s.freeNext := rfl
@[simp] theorem withPending_pending (s : State) (q : List Instr) : (s.withPending q).pending = q := rfl

@[simp] theorem setEntry_pins (s : State) (i : Fin 8) (e : Entry) : (s.setEntry i e).pins = s.pins := rfl
@[simp] theorem setEntry_service (s : State) (i : Fin 8) (e : Entry) : (s.setEntry i e).service = s.service := rfl
@[simp] theorem setEntry_drain (s : State) (i : Fin 8) (e : Entry) : (s.setEntry i e).drain = s.drain := rfl
@[simp] theorem setEntry_port (s : State) (i : Fin 8) (e : Entry) : (s.setEntry i e).port = s.port := rfl
@[simp] theorem setEntry_staging (s : State) (i : Fin 8) (e : Entry) :
    (s.setEntry i e).staging = { s.staging with entries := s.staging.entries.set i e } := rfl
@[simp] theorem setEntry_pageMap (s : State) (i : Fin 8) (e : Entry) : (s.setEntry i e).pageMap = s.pageMap := rfl
@[simp] theorem setEntry_mover (s : State) (i : Fin 8) (e : Entry) : (s.setEntry i e).mover = s.mover := rfl
@[simp] theorem setEntry_blocks (s : State) (i : Fin 8) (e : Entry) : (s.setEntry i e).blocks = s.blocks := rfl
@[simp] theorem setEntry_bankA (s : State) (i : Fin 8) (e : Entry) : (s.setEntry i e).bankA = s.bankA := rfl
@[simp] theorem setEntry_bankB (s : State) (i : Fin 8) (e : Entry) : (s.setEntry i e).bankB = s.bankB := rfl
@[simp] theorem setEntry_flashA (s : State) (i : Fin 8) (e : Entry) : (s.setEntry i e).flashA = s.flashA := rfl
@[simp] theorem setEntry_flashB (s : State) (i : Fin 8) (e : Entry) : (s.setEntry i e).flashB = s.flashB := rfl
@[simp] theorem setEntry_engine (s : State) (i : Fin 8) (e : Entry) : (s.setEntry i e).engine = s.engine := rfl
@[simp] theorem setEntry_mgmt (s : State) (i : Fin 8) (e : Entry) : (s.setEntry i e).mgmt = s.mgmt := rfl
@[simp] theorem setEntry_now (s : State) (i : Fin 8) (e : Entry) : (s.setEntry i e).now = s.now := rfl
@[simp] theorem setEntry_freeNext (s : State) (i : Fin 8) (e : Entry) : (s.setEntry i e).freeNext = s.freeNext := rfl
@[simp] theorem setEntry_pending (s : State) (i : Fin 8) (e : Entry) : (s.setEntry i e).pending = s.pending := rfl

@[simp] theorem setQueue_pins (s : State) (q : List (Fin 8)) : (s.setQueue q).pins = s.pins := rfl
@[simp] theorem setQueue_service (s : State) (q : List (Fin 8)) : (s.setQueue q).service = s.service := rfl
@[simp] theorem setQueue_drain (s : State) (q : List (Fin 8)) : (s.setQueue q).drain = s.drain := rfl
@[simp] theorem setQueue_port (s : State) (q : List (Fin 8)) : (s.setQueue q).port = s.port := rfl
@[simp] theorem setQueue_staging (s : State) (q : List (Fin 8)) :
    (s.setQueue q).staging = { s.staging with queue := q } := rfl
@[simp] theorem setQueue_pageMap (s : State) (q : List (Fin 8)) : (s.setQueue q).pageMap = s.pageMap := rfl
@[simp] theorem setQueue_mover (s : State) (q : List (Fin 8)) : (s.setQueue q).mover = s.mover := rfl
@[simp] theorem setQueue_blocks (s : State) (q : List (Fin 8)) : (s.setQueue q).blocks = s.blocks := rfl
@[simp] theorem setQueue_bankA (s : State) (q : List (Fin 8)) : (s.setQueue q).bankA = s.bankA := rfl
@[simp] theorem setQueue_bankB (s : State) (q : List (Fin 8)) : (s.setQueue q).bankB = s.bankB := rfl
@[simp] theorem setQueue_flashA (s : State) (q : List (Fin 8)) : (s.setQueue q).flashA = s.flashA := rfl
@[simp] theorem setQueue_flashB (s : State) (q : List (Fin 8)) : (s.setQueue q).flashB = s.flashB := rfl
@[simp] theorem setQueue_engine (s : State) (q : List (Fin 8)) : (s.setQueue q).engine = s.engine := rfl
@[simp] theorem setQueue_mgmt (s : State) (q : List (Fin 8)) : (s.setQueue q).mgmt = s.mgmt := rfl
@[simp] theorem setQueue_now (s : State) (q : List (Fin 8)) : (s.setQueue q).now = s.now := rfl
@[simp] theorem setQueue_freeNext (s : State) (q : List (Fin 8)) : (s.setQueue q).freeNext = s.freeNext := rfl
@[simp] theorem setQueue_pending (s : State) (q : List (Fin 8)) : (s.setQueue q).pending = s.pending := rfl

@[simp] theorem setService_pins (s : State) (x : ServiceState) : (s.setService x).pins = s.pins := rfl
@[simp] theorem setService_service (s : State) (x : ServiceState) :
    (s.setService x).service = { s.service with state := x } := rfl
@[simp] theorem setService_drain (s : State) (x : ServiceState) : (s.setService x).drain = s.drain := rfl
@[simp] theorem setService_port (s : State) (x : ServiceState) : (s.setService x).port = s.port := rfl
@[simp] theorem setService_staging (s : State) (x : ServiceState) : (s.setService x).staging = s.staging := rfl
@[simp] theorem setService_pageMap (s : State) (x : ServiceState) : (s.setService x).pageMap = s.pageMap := rfl
@[simp] theorem setService_mover (s : State) (x : ServiceState) : (s.setService x).mover = s.mover := rfl
@[simp] theorem setService_blocks (s : State) (x : ServiceState) : (s.setService x).blocks = s.blocks := rfl
@[simp] theorem setService_bankA (s : State) (x : ServiceState) : (s.setService x).bankA = s.bankA := rfl
@[simp] theorem setService_bankB (s : State) (x : ServiceState) : (s.setService x).bankB = s.bankB := rfl
@[simp] theorem setService_flashA (s : State) (x : ServiceState) : (s.setService x).flashA = s.flashA := rfl
@[simp] theorem setService_flashB (s : State) (x : ServiceState) : (s.setService x).flashB = s.flashB := rfl
@[simp] theorem setService_engine (s : State) (x : ServiceState) : (s.setService x).engine = s.engine := rfl
@[simp] theorem setService_mgmt (s : State) (x : ServiceState) : (s.setService x).mgmt = s.mgmt := rfl
@[simp] theorem setService_now (s : State) (x : ServiceState) : (s.setService x).now = s.now := rfl
@[simp] theorem setService_freeNext (s : State) (x : ServiceState) : (s.setService x).freeNext = s.freeNext := rfl
@[simp] theorem setService_pending (s : State) (x : ServiceState) : (s.setService x).pending = s.pending := rfl

@[simp] theorem setActivity_pins (s : State) (x : Activity) : (s.setActivity x).pins = s.pins := rfl
@[simp] theorem setActivity_service (s : State) (x : Activity) : (s.setActivity x).service = s.service := rfl
@[simp] theorem setActivity_drain (s : State) (x : Activity) : (s.setActivity x).drain = s.drain := rfl
@[simp] theorem setActivity_port (s : State) (x : Activity) : (s.setActivity x).port = s.port := rfl
@[simp] theorem setActivity_staging (s : State) (x : Activity) : (s.setActivity x).staging = s.staging := rfl
@[simp] theorem setActivity_pageMap (s : State) (x : Activity) : (s.setActivity x).pageMap = s.pageMap := rfl
@[simp] theorem setActivity_mover (s : State) (x : Activity) :
    (s.setActivity x).mover = { s.mover with activity := x } := rfl
@[simp] theorem setActivity_blocks (s : State) (x : Activity) : (s.setActivity x).blocks = s.blocks := rfl
@[simp] theorem setActivity_bankA (s : State) (x : Activity) : (s.setActivity x).bankA = s.bankA := rfl
@[simp] theorem setActivity_bankB (s : State) (x : Activity) : (s.setActivity x).bankB = s.bankB := rfl
@[simp] theorem setActivity_flashA (s : State) (x : Activity) : (s.setActivity x).flashA = s.flashA := rfl
@[simp] theorem setActivity_flashB (s : State) (x : Activity) : (s.setActivity x).flashB = s.flashB := rfl
@[simp] theorem setActivity_engine (s : State) (x : Activity) : (s.setActivity x).engine = s.engine := rfl
@[simp] theorem setActivity_mgmt (s : State) (x : Activity) : (s.setActivity x).mgmt = s.mgmt := rfl
@[simp] theorem setActivity_now (s : State) (x : Activity) : (s.setActivity x).now = s.now := rfl
@[simp] theorem setActivity_freeNext (s : State) (x : Activity) : (s.setActivity x).freeNext = s.freeNext := rfl
@[simp] theorem setActivity_pending (s : State) (x : Activity) : (s.setActivity x).pending = s.pending := rfl

@[simp] theorem setReserveHold_pins (s : State) (x : Bool) : (s.setReserveHold x).pins = s.pins := rfl
@[simp] theorem setReserveHold_service (s : State) (x : Bool) : (s.setReserveHold x).service = s.service := rfl
@[simp] theorem setReserveHold_drain (s : State) (x : Bool) : (s.setReserveHold x).drain = s.drain := rfl
@[simp] theorem setReserveHold_port (s : State) (x : Bool) : (s.setReserveHold x).port = s.port := rfl
@[simp] theorem setReserveHold_staging (s : State) (x : Bool) : (s.setReserveHold x).staging = s.staging := rfl
@[simp] theorem setReserveHold_pageMap (s : State) (x : Bool) : (s.setReserveHold x).pageMap = s.pageMap := rfl
@[simp] theorem setReserveHold_mover (s : State) (x : Bool) :
    (s.setReserveHold x).mover = { s.mover with reserveHold := x } := rfl
@[simp] theorem setReserveHold_blocks (s : State) (x : Bool) : (s.setReserveHold x).blocks = s.blocks := rfl
@[simp] theorem setReserveHold_bankA (s : State) (x : Bool) : (s.setReserveHold x).bankA = s.bankA := rfl
@[simp] theorem setReserveHold_bankB (s : State) (x : Bool) : (s.setReserveHold x).bankB = s.bankB := rfl
@[simp] theorem setReserveHold_flashA (s : State) (x : Bool) : (s.setReserveHold x).flashA = s.flashA := rfl
@[simp] theorem setReserveHold_flashB (s : State) (x : Bool) : (s.setReserveHold x).flashB = s.flashB := rfl
@[simp] theorem setReserveHold_engine (s : State) (x : Bool) : (s.setReserveHold x).engine = s.engine := rfl
@[simp] theorem setReserveHold_mgmt (s : State) (x : Bool) : (s.setReserveHold x).mgmt = s.mgmt := rfl
@[simp] theorem setReserveHold_now (s : State) (x : Bool) : (s.setReserveHold x).now = s.now := rfl
@[simp] theorem setReserveHold_freeNext (s : State) (x : Bool) : (s.setReserveHold x).freeNext = s.freeNext := rfl
@[simp] theorem setReserveHold_pending (s : State) (x : Bool) : (s.setReserveHold x).pending = s.pending := rfl

@[simp] theorem setEngine_pins (s : State) (x : Engine) : (s.setEngine x).pins = s.pins := rfl
@[simp] theorem setEngine_service (s : State) (x : Engine) : (s.setEngine x).service = s.service := rfl
@[simp] theorem setEngine_drain (s : State) (x : Engine) : (s.setEngine x).drain = s.drain := rfl
@[simp] theorem setEngine_port (s : State) (x : Engine) : (s.setEngine x).port = s.port := rfl
@[simp] theorem setEngine_staging (s : State) (x : Engine) : (s.setEngine x).staging = s.staging := rfl
@[simp] theorem setEngine_pageMap (s : State) (x : Engine) : (s.setEngine x).pageMap = s.pageMap := rfl
@[simp] theorem setEngine_mover (s : State) (x : Engine) : (s.setEngine x).mover = s.mover := rfl
@[simp] theorem setEngine_blocks (s : State) (x : Engine) : (s.setEngine x).blocks = s.blocks := rfl
@[simp] theorem setEngine_bankA (s : State) (x : Engine) : (s.setEngine x).bankA = s.bankA := rfl
@[simp] theorem setEngine_bankB (s : State) (x : Engine) : (s.setEngine x).bankB = s.bankB := rfl
@[simp] theorem setEngine_flashA (s : State) (x : Engine) : (s.setEngine x).flashA = s.flashA := rfl
@[simp] theorem setEngine_flashB (s : State) (x : Engine) : (s.setEngine x).flashB = s.flashB := rfl
@[simp] theorem setEngine_engine (s : State) (x : Engine) : (s.setEngine x).engine = x := rfl
@[simp] theorem setEngine_mgmt (s : State) (x : Engine) : (s.setEngine x).mgmt = s.mgmt := rfl
@[simp] theorem setEngine_now (s : State) (x : Engine) : (s.setEngine x).now = s.now := rfl
@[simp] theorem setEngine_freeNext (s : State) (x : Engine) : (s.setEngine x).freeNext = s.freeNext := rfl
@[simp] theorem setEngine_pending (s : State) (x : Engine) : (s.setEngine x).pending = s.pending := rfl

@[simp] theorem takeFree_pins (s : State) : (s.takeFree).pins = s.pins := rfl
@[simp] theorem takeFree_service (s : State) : (s.takeFree).service = s.service := rfl
@[simp] theorem takeFree_drain (s : State) : (s.takeFree).drain = s.drain := rfl
@[simp] theorem takeFree_port (s : State) : (s.takeFree).port = s.port := rfl
@[simp] theorem takeFree_staging (s : State) : (s.takeFree).staging = s.staging := rfl
@[simp] theorem takeFree_pageMap (s : State) : (s.takeFree).pageMap = s.pageMap := rfl
@[simp] theorem takeFree_mover (s : State) : (s.takeFree).mover = s.mover := rfl
@[simp] theorem takeFree_blocks (s : State) : (s.takeFree).blocks = s.blocks := rfl
@[simp] theorem takeFree_bankA (s : State) : (s.takeFree).bankA = s.bankA := rfl
@[simp] theorem takeFree_bankB (s : State) : (s.takeFree).bankB = s.bankB := rfl
@[simp] theorem takeFree_flashA (s : State) : (s.takeFree).flashA = s.flashA := rfl
@[simp] theorem takeFree_flashB (s : State) : (s.takeFree).flashB = s.flashB := rfl
@[simp] theorem takeFree_engine (s : State) : (s.takeFree).engine = s.engine := rfl
@[simp] theorem takeFree_mgmt (s : State) : (s.takeFree).mgmt = s.mgmt := rfl
@[simp] theorem takeFree_now (s : State) : (s.takeFree).now = s.now := rfl
@[simp] theorem takeFree_freeNext (s : State) : (s.takeFree).freeNext = s.freeNext + 1 := rfl
@[simp] theorem takeFree_pending (s : State) : (s.takeFree).pending = s.pending := rfl

@[simp] theorem modifyRecord_pins (s : State) (b : BlockRef) (f : BlockRecord → BlockRecord) :
    (s.modifyRecord b f).pins = s.pins := rfl
@[simp] theorem modifyRecord_service (s : State) (b : BlockRef) (f : BlockRecord → BlockRecord) :
    (s.modifyRecord b f).service = s.service := rfl
@[simp] theorem modifyRecord_drain (s : State) (b : BlockRef) (f : BlockRecord → BlockRecord) :
    (s.modifyRecord b f).drain = s.drain := rfl
@[simp] theorem modifyRecord_port (s : State) (b : BlockRef) (f : BlockRecord → BlockRecord) :
    (s.modifyRecord b f).port = s.port := rfl
@[simp] theorem modifyRecord_staging (s : State) (b : BlockRef) (f : BlockRecord → BlockRecord) :
    (s.modifyRecord b f).staging = s.staging := rfl
@[simp] theorem modifyRecord_pageMap (s : State) (b : BlockRef) (f : BlockRecord → BlockRecord) :
    (s.modifyRecord b f).pageMap = s.pageMap := rfl
@[simp] theorem modifyRecord_mover (s : State) (b : BlockRef) (f : BlockRecord → BlockRecord) :
    (s.modifyRecord b f).mover = s.mover := rfl
@[simp] theorem modifyRecord_blocks (s : State) (b : BlockRef) (f : BlockRecord → BlockRecord) :
    (s.modifyRecord b f).blocks = { s.blocks with 
      records := s.blocks.records.map fun p => if p.1 = b then (p.1, f p.2) else p } := rfl
@[simp] theorem modifyRecord_bankA (s : State) (b : BlockRef) (f : BlockRecord → BlockRecord) :
    (s.modifyRecord b f).bankA = s.bankA := rfl
@[simp] theorem modifyRecord_bankB (s : State) (b : BlockRef) (f : BlockRecord → BlockRecord) :
    (s.modifyRecord b f).bankB = s.bankB := rfl
@[simp] theorem modifyRecord_flashA (s : State) (b : BlockRef) (f : BlockRecord → BlockRecord) :
    (s.modifyRecord b f).flashA = s.flashA := rfl
@[simp] theorem modifyRecord_flashB (s : State) (b : BlockRef) (f : BlockRecord → BlockRecord) :
    (s.modifyRecord b f).flashB = s.flashB := rfl
@[simp] theorem modifyRecord_engine (s : State) (b : BlockRef) (f : BlockRecord → BlockRecord) :
    (s.modifyRecord b f).engine = s.engine := rfl
@[simp] theorem modifyRecord_mgmt (s : State) (b : BlockRef) (f : BlockRecord → BlockRecord) :
    (s.modifyRecord b f).mgmt = s.mgmt := rfl
@[simp] theorem modifyRecord_now (s : State) (b : BlockRef) (f : BlockRecord → BlockRecord) :
    (s.modifyRecord b f).now = s.now := rfl
@[simp] theorem modifyRecord_freeNext (s : State) (b : BlockRef) (f : BlockRecord → BlockRecord) :
    (s.modifyRecord b f).freeNext = s.freeNext := rfl
@[simp] theorem modifyRecord_pending (s : State) (b : BlockRef) (f : BlockRecord → BlockRecord) :
    (s.modifyRecord b f).pending = s.pending := rfl

@[simp] theorem setFlag_pins (s : State) (f : Flag) : (s.setFlag f).pins = s.pins := rfl
@[simp] theorem setFlag_service (s : State) (f : Flag) : (s.setFlag f).service = s.service := rfl
@[simp] theorem setFlag_drain (s : State) (f : Flag) : (s.setFlag f).drain = s.drain := rfl
@[simp] theorem setFlag_port (s : State) (f : Flag) : (s.setFlag f).port = s.port := rfl
@[simp] theorem setFlag_staging (s : State) (f : Flag) : (s.setFlag f).staging = s.staging := rfl
@[simp] theorem setFlag_pageMap (s : State) (f : Flag) : (s.setFlag f).pageMap = s.pageMap := rfl
@[simp] theorem setFlag_mover (s : State) (f : Flag) : (s.setFlag f).mover = s.mover := rfl
@[simp] theorem setFlag_blocks (s : State) (f : Flag) : (s.setFlag f).blocks = s.blocks := rfl
@[simp] theorem setFlag_bankA (s : State) (f : Flag) : (s.setFlag f).bankA = s.bankA := rfl
@[simp] theorem setFlag_bankB (s : State) (f : Flag) : (s.setFlag f).bankB = s.bankB := rfl
@[simp] theorem setFlag_flashA (s : State) (f : Flag) : (s.setFlag f).flashA = s.flashA := rfl
@[simp] theorem setFlag_flashB (s : State) (f : Flag) : (s.setFlag f).flashB = s.flashB := rfl
@[simp] theorem setFlag_engine (s : State) (f : Flag) : (s.setFlag f).engine = s.engine := rfl
@[simp] theorem setFlag_mgmt (s : State) (f : Flag) :
    (s.setFlag f).mgmt = { s.mgmt with flags := s.mgmt.flags ||| f.mask } := rfl
@[simp] theorem setFlag_now (s : State) (f : Flag) : (s.setFlag f).now = s.now := rfl
@[simp] theorem setFlag_freeNext (s : State) (f : Flag) : (s.setFlag f).freeNext = s.freeNext := rfl
@[simp] theorem setFlag_pending (s : State) (f : Flag) : (s.setFlag f).pending = s.pending := rfl

@[simp] theorem bump_pins (s : State) (c : Counter) : (s.bump c).pins = s.pins := rfl
@[simp] theorem bump_service (s : State) (c : Counter) : (s.bump c).service = s.service := rfl
@[simp] theorem bump_drain (s : State) (c : Counter) : (s.bump c).drain = s.drain := rfl
@[simp] theorem bump_port (s : State) (c : Counter) : (s.bump c).port = s.port := rfl
@[simp] theorem bump_staging (s : State) (c : Counter) : (s.bump c).staging = s.staging := rfl
@[simp] theorem bump_pageMap (s : State) (c : Counter) : (s.bump c).pageMap = s.pageMap := rfl
@[simp] theorem bump_mover (s : State) (c : Counter) : (s.bump c).mover = s.mover := rfl
@[simp] theorem bump_blocks (s : State) (c : Counter) : (s.bump c).blocks = s.blocks := rfl
@[simp] theorem bump_bankA (s : State) (c : Counter) : (s.bump c).bankA = s.bankA := rfl
@[simp] theorem bump_bankB (s : State) (c : Counter) : (s.bump c).bankB = s.bankB := rfl
@[simp] theorem bump_flashA (s : State) (c : Counter) : (s.bump c).flashA = s.flashA := rfl
@[simp] theorem bump_flashB (s : State) (c : Counter) : (s.bump c).flashB = s.flashB := rfl
@[simp] theorem bump_engine (s : State) (c : Counter) : (s.bump c).engine = s.engine := rfl
@[simp] theorem bump_mgmt (s : State) (c : Counter) :
    (s.bump c).mgmt = { s.mgmt with counters := s.mgmt.counters.set c.id (saturatingSucc s.mgmt.counters[c.id]) } := rfl
@[simp] theorem bump_now (s : State) (c : Counter) : (s.bump c).now = s.now := rfl
@[simp] theorem bump_freeNext (s : State) (c : Counter) : (s.bump c).freeNext = s.freeNext := rfl
@[simp] theorem bump_pending (s : State) (c : Counter) : (s.bump c).pending = s.pending := rfl

@[simp] theorem setReceiver_pins (s : State) (r : Receiver) : (s.setReceiver r).pins = s.pins := rfl
@[simp] theorem setReceiver_service (s : State) (r : Receiver) : (s.setReceiver r).service = s.service := rfl
@[simp] theorem setReceiver_drain (s : State) (r : Receiver) : (s.setReceiver r).drain = s.drain := rfl
@[simp] theorem setReceiver_port (s : State) (r : Receiver) : (s.setReceiver r).port = s.port := rfl
@[simp] theorem setReceiver_staging (s : State) (r : Receiver) : (s.setReceiver r).staging = s.staging := rfl
@[simp] theorem setReceiver_pageMap (s : State) (r : Receiver) : (s.setReceiver r).pageMap = s.pageMap := rfl
@[simp] theorem setReceiver_mover (s : State) (r : Receiver) : (s.setReceiver r).mover = s.mover := rfl
@[simp] theorem setReceiver_blocks (s : State) (r : Receiver) : (s.setReceiver r).blocks = s.blocks := rfl
@[simp] theorem setReceiver_bankA (s : State) (r : Receiver) : (s.setReceiver r).bankA = s.bankA := rfl
@[simp] theorem setReceiver_bankB (s : State) (r : Receiver) : (s.setReceiver r).bankB = s.bankB := rfl
@[simp] theorem setReceiver_flashA (s : State) (r : Receiver) : (s.setReceiver r).flashA = s.flashA := rfl
@[simp] theorem setReceiver_flashB (s : State) (r : Receiver) : (s.setReceiver r).flashB = s.flashB := rfl
@[simp] theorem setReceiver_engine (s : State) (r : Receiver) : (s.setReceiver r).engine = s.engine := rfl
@[simp] theorem setReceiver_mgmt (s : State) (r : Receiver) :
    (s.setReceiver r).mgmt = { s.mgmt with receiver := r } := rfl
@[simp] theorem setReceiver_now (s : State) (r : Receiver) : (s.setReceiver r).now = s.now := rfl
@[simp] theorem setReceiver_freeNext (s : State) (r : Receiver) : (s.setReceiver r).freeNext = s.freeNext := rfl
@[simp] theorem setReceiver_pending (s : State) (r : Receiver) : (s.setReceiver r).pending = s.pending := rfl

@[simp] theorem setWait_pins (s : State) (w : Wait) : (setWait w s).pins = s.pins := rfl
@[simp] theorem setWait_service (s : State) (w : Wait) : (setWait w s).service = s.service := rfl
@[simp] theorem setWait_drain (s : State) (w : Wait) : (setWait w s).drain = s.drain := rfl
@[simp] theorem setWait_port (s : State) (w : Wait) :
    (setWait w s).port = { s.port with cycle := s.port.cycle.map fun c => { c with wait := w } } := rfl
@[simp] theorem setWait_staging (s : State) (w : Wait) : (setWait w s).staging = s.staging := rfl
@[simp] theorem setWait_pageMap (s : State) (w : Wait) : (setWait w s).pageMap = s.pageMap := rfl
@[simp] theorem setWait_mover (s : State) (w : Wait) : (setWait w s).mover = s.mover := rfl
@[simp] theorem setWait_blocks (s : State) (w : Wait) : (setWait w s).blocks = s.blocks := rfl
@[simp] theorem setWait_bankA (s : State) (w : Wait) : (setWait w s).bankA = s.bankA := rfl
@[simp] theorem setWait_bankB (s : State) (w : Wait) : (setWait w s).bankB = s.bankB := rfl
@[simp] theorem setWait_flashA (s : State) (w : Wait) : (setWait w s).flashA = s.flashA := rfl
@[simp] theorem setWait_flashB (s : State) (w : Wait) : (setWait w s).flashB = s.flashB := rfl
@[simp] theorem setWait_engine (s : State) (w : Wait) : (setWait w s).engine = s.engine := rfl
@[simp] theorem setWait_mgmt (s : State) (w : Wait) : (setWait w s).mgmt = s.mgmt := rfl
@[simp] theorem setWait_now (s : State) (w : Wait) : (setWait w s).now = s.now := rfl
@[simp] theorem setWait_freeNext (s : State) (w : Wait) : (setWait w s).freeNext = s.freeNext := rfl
@[simp] theorem setWait_pending (s : State) (w : Wait) : (setWait w s).pending = s.pending := rfl

@[simp] theorem setCycle_pins (s : State) (c : Cycle) : (setCycle c s).pins = s.pins := rfl
@[simp] theorem setCycle_service (s : State) (c : Cycle) : (setCycle c s).service = s.service := rfl
@[simp] theorem setCycle_drain (s : State) (c : Cycle) : (setCycle c s).drain = s.drain := rfl
@[simp] theorem setCycle_port (s : State) (c : Cycle) : (setCycle c s).port = { s.port with cycle := some c } := rfl
@[simp] theorem setCycle_staging (s : State) (c : Cycle) : (setCycle c s).staging = s.staging := rfl
@[simp] theorem setCycle_pageMap (s : State) (c : Cycle) : (setCycle c s).pageMap = s.pageMap := rfl
@[simp] theorem setCycle_mover (s : State) (c : Cycle) : (setCycle c s).mover = s.mover := rfl
@[simp] theorem setCycle_blocks (s : State) (c : Cycle) : (setCycle c s).blocks = s.blocks := rfl
@[simp] theorem setCycle_bankA (s : State) (c : Cycle) : (setCycle c s).bankA = s.bankA := rfl
@[simp] theorem setCycle_bankB (s : State) (c : Cycle) : (setCycle c s).bankB = s.bankB := rfl
@[simp] theorem setCycle_flashA (s : State) (c : Cycle) : (setCycle c s).flashA = s.flashA := rfl
@[simp] theorem setCycle_flashB (s : State) (c : Cycle) : (setCycle c s).flashB = s.flashB := rfl
@[simp] theorem setCycle_engine (s : State) (c : Cycle) : (setCycle c s).engine = s.engine := rfl
@[simp] theorem setCycle_mgmt (s : State) (c : Cycle) : (setCycle c s).mgmt = s.mgmt := rfl
@[simp] theorem setCycle_now (s : State) (c : Cycle) : (setCycle c s).now = s.now := rfl
@[simp] theorem setCycle_freeNext (s : State) (c : Cycle) : (setCycle c s).freeNext = s.freeNext := rfl
@[simp] theorem setCycle_pending (s : State) (c : Cycle) : (setCycle c s).pending = s.pending := rfl

@[simp] theorem setReturn_pins (s : State) (r : Option ReturnState) : (setReturn r s).pins = s.pins := rfl
@[simp] theorem setReturn_service (s : State) (r : Option ReturnState) : (setReturn r s).service = s.service := rfl
@[simp] theorem setReturn_drain (s : State) (r : Option ReturnState) :
    (setReturn r s).drain = { s.drain with returnState := r } := rfl
@[simp] theorem setReturn_port (s : State) (r : Option ReturnState) : (setReturn r s).port = s.port := rfl
@[simp] theorem setReturn_staging (s : State) (r : Option ReturnState) : (setReturn r s).staging = s.staging := rfl
@[simp] theorem setReturn_pageMap (s : State) (r : Option ReturnState) : (setReturn r s).pageMap = s.pageMap := rfl
@[simp] theorem setReturn_mover (s : State) (r : Option ReturnState) : (setReturn r s).mover = s.mover := rfl
@[simp] theorem setReturn_blocks (s : State) (r : Option ReturnState) : (setReturn r s).blocks = s.blocks := rfl
@[simp] theorem setReturn_bankA (s : State) (r : Option ReturnState) : (setReturn r s).bankA = s.bankA := rfl
@[simp] theorem setReturn_bankB (s : State) (r : Option ReturnState) : (setReturn r s).bankB = s.bankB := rfl
@[simp] theorem setReturn_flashA (s : State) (r : Option ReturnState) : (setReturn r s).flashA = s.flashA := rfl
@[simp] theorem setReturn_flashB (s : State) (r : Option ReturnState) : (setReturn r s).flashB = s.flashB := rfl
@[simp] theorem setReturn_engine (s : State) (r : Option ReturnState) : (setReturn r s).engine = s.engine := rfl
@[simp] theorem setReturn_mgmt (s : State) (r : Option ReturnState) : (setReturn r s).mgmt = s.mgmt := rfl
@[simp] theorem setReturn_now (s : State) (r : Option ReturnState) : (setReturn r s).now = s.now := rfl
@[simp] theorem setReturn_freeNext (s : State) (r : Option ReturnState) : (setReturn r s).freeNext = s.freeNext := rfl
@[simp] theorem setReturn_pending (s : State) (r : Option ReturnState) : (setReturn r s).pending = s.pending := rfl

@[simp] theorem dropLine_pins (s : State) : (dropLine s).pins = s.pins := rfl
@[simp] theorem dropLine_service (s : State) : (dropLine s).service = s.service := rfl
@[simp] theorem dropLine_drain (s : State) : (dropLine s).drain = { s.drain with line := false } := rfl
@[simp] theorem dropLine_port (s : State) : (dropLine s).port = s.port := rfl
@[simp] theorem dropLine_staging (s : State) : (dropLine s).staging = s.staging := rfl
@[simp] theorem dropLine_pageMap (s : State) : (dropLine s).pageMap = s.pageMap := rfl
@[simp] theorem dropLine_mover (s : State) : (dropLine s).mover = s.mover := rfl
@[simp] theorem dropLine_blocks (s : State) : (dropLine s).blocks = s.blocks := rfl
@[simp] theorem dropLine_bankA (s : State) : (dropLine s).bankA = s.bankA := rfl
@[simp] theorem dropLine_bankB (s : State) : (dropLine s).bankB = s.bankB := rfl
@[simp] theorem dropLine_flashA (s : State) : (dropLine s).flashA = s.flashA := rfl
@[simp] theorem dropLine_flashB (s : State) : (dropLine s).flashB = s.flashB := rfl
@[simp] theorem dropLine_engine (s : State) : (dropLine s).engine = s.engine := rfl
@[simp] theorem dropLine_mgmt (s : State) : (dropLine s).mgmt = s.mgmt := rfl
@[simp] theorem dropLine_now (s : State) : (dropLine s).now = s.now := rfl
@[simp] theorem dropLine_freeNext (s : State) : (dropLine s).freeNext = s.freeNext := rfl
@[simp] theorem dropLine_pending (s : State) : (dropLine s).pending = s.pending := rfl

@[simp] theorem setRestart_pins (s : State) : (setRestart s).pins = s.pins := rfl
@[simp] theorem setRestart_service (s : State) : (setRestart s).service = s.service := rfl
@[simp] theorem setRestart_drain (s : State) : (setRestart s).drain = { s.drain with restartPending := true } := rfl
@[simp] theorem setRestart_port (s : State) : (setRestart s).port = s.port := rfl
@[simp] theorem setRestart_staging (s : State) : (setRestart s).staging = s.staging := rfl
@[simp] theorem setRestart_pageMap (s : State) : (setRestart s).pageMap = s.pageMap := rfl
@[simp] theorem setRestart_mover (s : State) : (setRestart s).mover = s.mover := rfl
@[simp] theorem setRestart_blocks (s : State) : (setRestart s).blocks = s.blocks := rfl
@[simp] theorem setRestart_bankA (s : State) : (setRestart s).bankA = s.bankA := rfl
@[simp] theorem setRestart_bankB (s : State) : (setRestart s).bankB = s.bankB := rfl
@[simp] theorem setRestart_flashA (s : State) : (setRestart s).flashA = s.flashA := rfl
@[simp] theorem setRestart_flashB (s : State) : (setRestart s).flashB = s.flashB := rfl
@[simp] theorem setRestart_engine (s : State) : (setRestart s).engine = s.engine := rfl
@[simp] theorem setRestart_mgmt (s : State) : (setRestart s).mgmt = s.mgmt := rfl
@[simp] theorem setRestart_now (s : State) : (setRestart s).now = s.now := rfl
@[simp] theorem setRestart_freeNext (s : State) : (setRestart s).freeNext = s.freeNext := rfl
@[simp] theorem setRestart_pending (s : State) : (setRestart s).pending = s.pending := rfl

@[simp] theorem setPfail_pins (s : State) (l : Bool) : (setPfail l s).pins = { s.pins with pfail := l } := rfl
@[simp] theorem setPfail_service (s : State) (l : Bool) : (setPfail l s).service = s.service := rfl
@[simp] theorem setPfail_drain (s : State) (l : Bool) : (setPfail l s).drain = s.drain := rfl
@[simp] theorem setPfail_port (s : State) (l : Bool) : (setPfail l s).port = s.port := rfl
@[simp] theorem setPfail_staging (s : State) (l : Bool) : (setPfail l s).staging = s.staging := rfl
@[simp] theorem setPfail_pageMap (s : State) (l : Bool) : (setPfail l s).pageMap = s.pageMap := rfl
@[simp] theorem setPfail_mover (s : State) (l : Bool) : (setPfail l s).mover = s.mover := rfl
@[simp] theorem setPfail_blocks (s : State) (l : Bool) : (setPfail l s).blocks = s.blocks := rfl
@[simp] theorem setPfail_bankA (s : State) (l : Bool) : (setPfail l s).bankA = s.bankA := rfl
@[simp] theorem setPfail_bankB (s : State) (l : Bool) : (setPfail l s).bankB = s.bankB := rfl
@[simp] theorem setPfail_flashA (s : State) (l : Bool) : (setPfail l s).flashA = s.flashA := rfl
@[simp] theorem setPfail_flashB (s : State) (l : Bool) : (setPfail l s).flashB = s.flashB := rfl
@[simp] theorem setPfail_engine (s : State) (l : Bool) : (setPfail l s).engine = s.engine := rfl
@[simp] theorem setPfail_mgmt (s : State) (l : Bool) : (setPfail l s).mgmt = s.mgmt := rfl
@[simp] theorem setPfail_now (s : State) (l : Bool) : (setPfail l s).now = s.now := rfl
@[simp] theorem setPfail_freeNext (s : State) (l : Bool) : (setPfail l s).freeNext = s.freeNext := rfl
@[simp] theorem setPfail_pending (s : State) (l : Bool) : (setPfail l s).pending = s.pending := rfl

@[simp] theorem setParam_pins (s : State) (id v : Nat) : (setParam id v s).pins = s.pins := rfl
@[simp] theorem setParam_service (s : State) (id v : Nat) : (setParam id v s).service = s.service := rfl
@[simp] theorem setParam_drain (s : State) (id v : Nat) : (setParam id v s).drain = s.drain := rfl
@[simp] theorem setParam_port (s : State) (id v : Nat) : (setParam id v s).port = s.port := rfl
@[simp] theorem setParam_staging (s : State) (id v : Nat) : (setParam id v s).staging = s.staging := rfl
@[simp] theorem setParam_pageMap (s : State) (id v : Nat) : (setParam id v s).pageMap = s.pageMap := rfl
@[simp] theorem setParam_mover (s : State) (id v : Nat) : (setParam id v s).mover = s.mover := rfl
@[simp] theorem setParam_blocks (s : State) (id v : Nat) : (setParam id v s).blocks = s.blocks := rfl
@[simp] theorem setParam_bankA (s : State) (id v : Nat) : (setParam id v s).bankA = s.bankA := rfl
@[simp] theorem setParam_bankB (s : State) (id v : Nat) : (setParam id v s).bankB = s.bankB := rfl
@[simp] theorem setParam_flashA (s : State) (id v : Nat) : (setParam id v s).flashA = s.flashA := rfl
@[simp] theorem setParam_flashB (s : State) (id v : Nat) : (setParam id v s).flashB = s.flashB := rfl
@[simp] theorem setParam_engine (s : State) (id v : Nat) : (setParam id v s).engine = s.engine := rfl
@[simp] theorem setParam_mgmt (s : State) (id v : Nat) :
    (setParam id v s).mgmt = { s.mgmt with params := s.mgmt.params.put id v } := rfl
@[simp] theorem setParam_now (s : State) (id v : Nat) : (setParam id v s).now = s.now := rfl
@[simp] theorem setParam_freeNext (s : State) (id v : Nat) : (setParam id v s).freeNext = s.freeNext := rfl
@[simp] theorem setParam_pending (s : State) (id v : Nat) : (setParam id v s).pending = s.pending := rfl

@[simp] theorem setSerial_pins (s : State) (n : BitVec 16) : (setSerial n s).pins = s.pins := rfl
@[simp] theorem setSerial_service (s : State) (n : BitVec 16) :
    (setSerial n s).service = { s.service with serial := some n } := rfl
@[simp] theorem setSerial_drain (s : State) (n : BitVec 16) : (setSerial n s).drain = s.drain := rfl
@[simp] theorem setSerial_port (s : State) (n : BitVec 16) : (setSerial n s).port = s.port := rfl
@[simp] theorem setSerial_staging (s : State) (n : BitVec 16) : (setSerial n s).staging = s.staging := rfl
@[simp] theorem setSerial_pageMap (s : State) (n : BitVec 16) : (setSerial n s).pageMap = s.pageMap := rfl
@[simp] theorem setSerial_mover (s : State) (n : BitVec 16) : (setSerial n s).mover = s.mover := rfl
@[simp] theorem setSerial_blocks (s : State) (n : BitVec 16) : (setSerial n s).blocks = s.blocks := rfl
@[simp] theorem setSerial_bankA (s : State) (n : BitVec 16) : (setSerial n s).bankA = s.bankA := rfl
@[simp] theorem setSerial_bankB (s : State) (n : BitVec 16) : (setSerial n s).bankB = s.bankB := rfl
@[simp] theorem setSerial_flashA (s : State) (n : BitVec 16) : (setSerial n s).flashA = s.flashA := rfl
@[simp] theorem setSerial_flashB (s : State) (n : BitVec 16) : (setSerial n s).flashB = s.flashB := rfl
@[simp] theorem setSerial_engine (s : State) (n : BitVec 16) : (setSerial n s).engine = s.engine := rfl
@[simp] theorem setSerial_mgmt (s : State) (n : BitVec 16) : (setSerial n s).mgmt = s.mgmt := rfl
@[simp] theorem setSerial_now (s : State) (n : BitVec 16) : (setSerial n s).now = s.now := rfl
@[simp] theorem setSerial_freeNext (s : State) (n : BitVec 16) : (setSerial n s).freeNext = s.freeNext := rfl
@[simp] theorem setSerial_pending (s : State) (n : BitVec 16) : (setSerial n s).pending = s.pending := rfl

@[simp] theorem setVolume_pins (s : State) (pages banks : Nat) : (setVolume pages banks s).pins = s.pins := rfl
@[simp] theorem setVolume_service (s : State) (pages banks : Nat) :
    (setVolume pages banks s).service = { s.service with pages := some pages, bankCount := some banks } := rfl
@[simp] theorem setVolume_drain (s : State) (pages banks : Nat) : (setVolume pages banks s).drain = s.drain := rfl
@[simp] theorem setVolume_port (s : State) (pages banks : Nat) : (setVolume pages banks s).port = s.port := rfl
@[simp] theorem setVolume_staging (s : State) (pages banks : Nat) : (setVolume pages banks s).staging = s.staging := rfl
@[simp] theorem setVolume_pageMap (s : State) (pages banks : Nat) : (setVolume pages banks s).pageMap = s.pageMap := rfl
@[simp] theorem setVolume_mover (s : State) (pages banks : Nat) : (setVolume pages banks s).mover = s.mover := rfl
@[simp] theorem setVolume_blocks (s : State) (pages banks : Nat) : (setVolume pages banks s).blocks = s.blocks := rfl
@[simp] theorem setVolume_bankA (s : State) (pages banks : Nat) : (setVolume pages banks s).bankA = s.bankA := rfl
@[simp] theorem setVolume_bankB (s : State) (pages banks : Nat) : (setVolume pages banks s).bankB = s.bankB := rfl
@[simp] theorem setVolume_flashA (s : State) (pages banks : Nat) : (setVolume pages banks s).flashA = s.flashA := rfl
@[simp] theorem setVolume_flashB (s : State) (pages banks : Nat) : (setVolume pages banks s).flashB = s.flashB := rfl
@[simp] theorem setVolume_engine (s : State) (pages banks : Nat) : (setVolume pages banks s).engine = s.engine := rfl
@[simp] theorem setVolume_mgmt (s : State) (pages banks : Nat) : (setVolume pages banks s).mgmt = s.mgmt := rfl
@[simp] theorem setVolume_now (s : State) (pages banks : Nat) : (setVolume pages banks s).now = s.now := rfl
@[simp] theorem setVolume_freeNext (s : State) (pages banks : Nat) :
    (setVolume pages banks s).freeNext = s.freeNext := rfl
@[simp] theorem setVolume_pending (s : State) (pages banks : Nat) : (setVolume pages banks s).pending = s.pending := rfl

@[simp] theorem fillBuffer_pins (s : State) (l : List Byte) : (fillBuffer l s).pins = s.pins := rfl
@[simp] theorem fillBuffer_service (s : State) (l : List Byte) : (fillBuffer l s).service = s.service := rfl
@[simp] theorem fillBuffer_drain (s : State) (l : List Byte) : (fillBuffer l s).drain = s.drain := rfl
@[simp] theorem fillBuffer_port (s : State) (l : List Byte) : (fillBuffer l s).port = s.port := rfl
@[simp] theorem fillBuffer_staging (s : State) (l : List Byte) : (fillBuffer l s).staging = s.staging := rfl
@[simp] theorem fillBuffer_pageMap (s : State) (l : List Byte) : (fillBuffer l s).pageMap = s.pageMap := rfl
@[simp] theorem fillBuffer_mover (s : State) (l : List Byte) :
    (fillBuffer l s).mover = { s.mover with buffer := l } := rfl
@[simp] theorem fillBuffer_blocks (s : State) (l : List Byte) : (fillBuffer l s).blocks = s.blocks := rfl
@[simp] theorem fillBuffer_bankA (s : State) (l : List Byte) : (fillBuffer l s).bankA = s.bankA := rfl
@[simp] theorem fillBuffer_bankB (s : State) (l : List Byte) : (fillBuffer l s).bankB = s.bankB := rfl
@[simp] theorem fillBuffer_flashA (s : State) (l : List Byte) : (fillBuffer l s).flashA = s.flashA := rfl
@[simp] theorem fillBuffer_flashB (s : State) (l : List Byte) : (fillBuffer l s).flashB = s.flashB := rfl
@[simp] theorem fillBuffer_engine (s : State) (l : List Byte) : (fillBuffer l s).engine = s.engine := rfl
@[simp] theorem fillBuffer_mgmt (s : State) (l : List Byte) : (fillBuffer l s).mgmt = s.mgmt := rfl
@[simp] theorem fillBuffer_now (s : State) (l : List Byte) : (fillBuffer l s).now = s.now := rfl
@[simp] theorem fillBuffer_freeNext (s : State) (l : List Byte) : (fillBuffer l s).freeNext = s.freeNext := rfl
@[simp] theorem fillBuffer_pending (s : State) (l : List Byte) : (fillBuffer l s).pending = s.pending := rfl

@[simp] theorem noteGrant_pins (s : State) (g : LastGrant) : (noteGrant g s).pins = s.pins := rfl
@[simp] theorem noteGrant_service (s : State) (g : LastGrant) : (noteGrant g s).service = s.service := rfl
@[simp] theorem noteGrant_drain (s : State) (g : LastGrant) : (noteGrant g s).drain = s.drain := rfl
@[simp] theorem noteGrant_port (s : State) (g : LastGrant) : (noteGrant g s).port = s.port := rfl
@[simp] theorem noteGrant_staging (s : State) (g : LastGrant) : (noteGrant g s).staging = s.staging := rfl
@[simp] theorem noteGrant_pageMap (s : State) (g : LastGrant) : (noteGrant g s).pageMap = s.pageMap := rfl
@[simp] theorem noteGrant_mover (s : State) (g : LastGrant) :
    (noteGrant g s).mover = { s.mover with lastGrant := g } := rfl
@[simp] theorem noteGrant_blocks (s : State) (g : LastGrant) : (noteGrant g s).blocks = s.blocks := rfl
@[simp] theorem noteGrant_bankA (s : State) (g : LastGrant) : (noteGrant g s).bankA = s.bankA := rfl
@[simp] theorem noteGrant_bankB (s : State) (g : LastGrant) : (noteGrant g s).bankB = s.bankB := rfl
@[simp] theorem noteGrant_flashA (s : State) (g : LastGrant) : (noteGrant g s).flashA = s.flashA := rfl
@[simp] theorem noteGrant_flashB (s : State) (g : LastGrant) : (noteGrant g s).flashB = s.flashB := rfl
@[simp] theorem noteGrant_engine (s : State) (g : LastGrant) : (noteGrant g s).engine = s.engine := rfl
@[simp] theorem noteGrant_mgmt (s : State) (g : LastGrant) : (noteGrant g s).mgmt = s.mgmt := rfl
@[simp] theorem noteGrant_now (s : State) (g : LastGrant) : (noteGrant g s).now = s.now := rfl
@[simp] theorem noteGrant_freeNext (s : State) (g : LastGrant) : (noteGrant g s).freeNext = s.freeNext := rfl
@[simp] theorem noteGrant_pending (s : State) (g : LastGrant) : (noteGrant g s).pending = s.pending := rfl

@[simp] theorem advanceScan_pins (s : State) : (advanceScan s).pins = s.pins := rfl
@[simp] theorem advanceScan_service (s : State) : (advanceScan s).service = s.service := rfl
@[simp] theorem advanceScan_drain (s : State) : (advanceScan s).drain = s.drain := rfl
@[simp] theorem advanceScan_port (s : State) : (advanceScan s).port = s.port := rfl
@[simp] theorem advanceScan_staging (s : State) : (advanceScan s).staging = s.staging := rfl
@[simp] theorem advanceScan_pageMap (s : State) : (advanceScan s).pageMap = s.pageMap := rfl
@[simp] theorem advanceScan_mover (s : State) : (advanceScan s).mover = s.mover := rfl
@[simp] theorem advanceScan_blocks (s : State) :
    (advanceScan s).blocks = { s.blocks with scanPos := s.blocks.scanPos + 1 } := rfl
@[simp] theorem advanceScan_bankA (s : State) : (advanceScan s).bankA = s.bankA := rfl
@[simp] theorem advanceScan_bankB (s : State) : (advanceScan s).bankB = s.bankB := rfl
@[simp] theorem advanceScan_flashA (s : State) : (advanceScan s).flashA = s.flashA := rfl
@[simp] theorem advanceScan_flashB (s : State) : (advanceScan s).flashB = s.flashB := rfl
@[simp] theorem advanceScan_engine (s : State) : (advanceScan s).engine = s.engine := rfl
@[simp] theorem advanceScan_mgmt (s : State) : (advanceScan s).mgmt = s.mgmt := rfl
@[simp] theorem advanceScan_now (s : State) : (advanceScan s).now = s.now := rfl
@[simp] theorem advanceScan_freeNext (s : State) : (advanceScan s).freeNext = s.freeNext := rfl
@[simp] theorem advanceScan_pending (s : State) : (advanceScan s).pending = s.pending := rfl

@[simp] theorem setBank_pins (s : State) (bk : BankId) (k : BankCtl) : (s.setBank bk k).pins = s.pins := by
  cases bk <;> rfl
@[simp] theorem setBank_service (s : State) (bk : BankId) (k : BankCtl) : (s.setBank bk k).service = s.service := by
  cases bk <;> rfl
@[simp] theorem setBank_drain (s : State) (bk : BankId) (k : BankCtl) : (s.setBank bk k).drain = s.drain := by
  cases bk <;> rfl
@[simp] theorem setBank_port (s : State) (bk : BankId) (k : BankCtl) : (s.setBank bk k).port = s.port := by
  cases bk <;> rfl
@[simp] theorem setBank_staging (s : State) (bk : BankId) (k : BankCtl) : (s.setBank bk k).staging = s.staging := by
  cases bk <;> rfl
@[simp] theorem setBank_pageMap (s : State) (bk : BankId) (k : BankCtl) : (s.setBank bk k).pageMap = s.pageMap := by
  cases bk <;> rfl
@[simp] theorem setBank_mover (s : State) (bk : BankId) (k : BankCtl) : (s.setBank bk k).mover = s.mover := by
  cases bk <;> rfl
@[simp] theorem setBank_blocks (s : State) (bk : BankId) (k : BankCtl) : (s.setBank bk k).blocks = s.blocks := by
  cases bk <;> rfl
@[simp] theorem setBank_flashA (s : State) (bk : BankId) (k : BankCtl) : (s.setBank bk k).flashA = s.flashA := by
  cases bk <;> rfl
@[simp] theorem setBank_flashB (s : State) (bk : BankId) (k : BankCtl) : (s.setBank bk k).flashB = s.flashB := by
  cases bk <;> rfl
@[simp] theorem setBank_engine (s : State) (bk : BankId) (k : BankCtl) : (s.setBank bk k).engine = s.engine := by
  cases bk <;> rfl
@[simp] theorem setBank_mgmt (s : State) (bk : BankId) (k : BankCtl) : (s.setBank bk k).mgmt = s.mgmt := by
  cases bk <;> rfl
@[simp] theorem setBank_now (s : State) (bk : BankId) (k : BankCtl) : (s.setBank bk k).now = s.now := by
  cases bk <;> rfl
@[simp] theorem setBank_freeNext (s : State) (bk : BankId) (k : BankCtl) : (s.setBank bk k).freeNext = s.freeNext := by
  cases bk <;> rfl
@[simp] theorem setBank_pending (s : State) (bk : BankId) (k : BankCtl) : (s.setBank bk k).pending = s.pending := by
  cases bk <;> rfl

@[simp] theorem setBank_bank (s : State) (bk : BankId) (k : BankCtl) : (s.setBank bk k).bank bk = k := by
  cases bk <;> rfl
theorem setBank_bank_ne (s : State) (k : BankCtl) {bk bk2 : BankId} (h : bk2 ≠ bk) :
    (s.setBank bk k).bank bk2 = s.bank bk2 := by
  cases bk <;> cases bk2 <;> first | rfl | exact absurd rfl h
@[simp] theorem setBank_bank_a (s : State) (k : BankCtl) : (s.setBank .b k).bank .a = s.bankA := rfl
@[simp] theorem setBank_bank_b (s : State) (k : BankCtl) : (s.setBank .a k).bank .b = s.bankB := rfl
@[simp] theorem setBank_bankA_a (s : State) (k : BankCtl) : (s.setBank .a k).bankA = k := rfl
@[simp] theorem setBank_bankA_b (s : State) (k : BankCtl) : (s.setBank .b k).bankA = s.bankA := rfl
@[simp] theorem setBank_bankB_a (s : State) (k : BankCtl) : (s.setBank .a k).bankB = s.bankB := rfl
@[simp] theorem setBank_bankB_b (s : State) (k : BankCtl) : (s.setBank .b k).bankB = k := rfl
@[simp] theorem setBank_bank_self (s : State) (bk : BankId) : s.setBank bk (s.bank bk) = s := by cases bk <;> rfl
@[simp] theorem setBank_flash (s : State) (bk bk2 : BankId) (k : BankCtl) :
    (s.setBank bk k).flash bk2 = s.flash bk2 := by
  cases bk <;> cases bk2 <;> rfl

@[simp] theorem setFlash_pins (s : State) (bk : BankId) (f : Flash) : (s.setFlash bk f).pins = s.pins := by
  cases bk <;> rfl
@[simp] theorem setFlash_service (s : State) (bk : BankId) (f : Flash) : (s.setFlash bk f).service = s.service := by
  cases bk <;> rfl
@[simp] theorem setFlash_drain (s : State) (bk : BankId) (f : Flash) : (s.setFlash bk f).drain = s.drain := by
  cases bk <;> rfl
@[simp] theorem setFlash_port (s : State) (bk : BankId) (f : Flash) : (s.setFlash bk f).port = s.port := by
  cases bk <;> rfl
@[simp] theorem setFlash_staging (s : State) (bk : BankId) (f : Flash) : (s.setFlash bk f).staging = s.staging := by
  cases bk <;> rfl
@[simp] theorem setFlash_pageMap (s : State) (bk : BankId) (f : Flash) : (s.setFlash bk f).pageMap = s.pageMap := by
  cases bk <;> rfl
@[simp] theorem setFlash_mover (s : State) (bk : BankId) (f : Flash) : (s.setFlash bk f).mover = s.mover := by
  cases bk <;> rfl
@[simp] theorem setFlash_blocks (s : State) (bk : BankId) (f : Flash) : (s.setFlash bk f).blocks = s.blocks := by
  cases bk <;> rfl
@[simp] theorem setFlash_bankA (s : State) (bk : BankId) (f : Flash) : (s.setFlash bk f).bankA = s.bankA := by
  cases bk <;> rfl
@[simp] theorem setFlash_bankB (s : State) (bk : BankId) (f : Flash) : (s.setFlash bk f).bankB = s.bankB := by
  cases bk <;> rfl
@[simp] theorem setFlash_engine (s : State) (bk : BankId) (f : Flash) : (s.setFlash bk f).engine = s.engine := by
  cases bk <;> rfl
@[simp] theorem setFlash_mgmt (s : State) (bk : BankId) (f : Flash) : (s.setFlash bk f).mgmt = s.mgmt := by
  cases bk <;> rfl
@[simp] theorem setFlash_now (s : State) (bk : BankId) (f : Flash) : (s.setFlash bk f).now = s.now := by
  cases bk <;> rfl
@[simp] theorem setFlash_freeNext (s : State) (bk : BankId) (f : Flash) : (s.setFlash bk f).freeNext = s.freeNext := by
  cases bk <;> rfl
@[simp] theorem setFlash_pending (s : State) (bk : BankId) (f : Flash) : (s.setFlash bk f).pending = s.pending := by
  cases bk <;> rfl

@[simp] theorem setFlash_flash (s : State) (bk : BankId) (f : Flash) : (s.setFlash bk f).flash bk = f := by
  cases bk <;> rfl
theorem setFlash_flash_ne (s : State) (f : Flash) {bk bk2 : BankId} (h : bk2 ≠ bk) :
    (s.setFlash bk f).flash bk2 = s.flash bk2 := by
  cases bk <;> cases bk2 <;> first | rfl | exact absurd rfl h
@[simp] theorem setFlash_bank (s : State) (bk bk2 : BankId) (f : Flash) :
    (s.setFlash bk f).bank bk2 = s.bank bk2 := by
  cases bk <;> cases bk2 <;> rfl
@[simp] theorem setFlash_flashA_a (s : State) (f : Flash) : (s.setFlash .a f).flashA = f := rfl
@[simp] theorem setFlash_flashA_b (s : State) (f : Flash) : (s.setFlash .b f).flashA = s.flashA := rfl
@[simp] theorem setFlash_flashB_a (s : State) (f : Flash) : (s.setFlash .a f).flashB = s.flashB := rfl
@[simp] theorem setFlash_flashB_b (s : State) (f : Flash) : (s.setFlash .b f).flashB = f := rfl

/-! ## Reading an entry -/

@[simp] theorem entry_setEntry (s : State) (i : Fin 8) (e : Entry) : (s.setEntry i e).entry i = e := by
  simp [State.entry]
theorem entry_setEntry_ne (s : State) (e : Entry) {i j : Fin 8} (h : j ≠ i) : (s.setEntry i e).entry j = s.entry j := by
  have : i.val ≠ j.val := fun hh => h (Fin.ext hh.symm)
  simp [State.entry, this]
@[simp] theorem entry_setQueue (s : State) (q : List (Fin 8)) (i : Fin 8) : (s.setQueue q).entry i = s.entry i := rfl

end Sys2Proof.Machine
end

