-- ==== Sys2Proof/Laws/Base.lean ====
section
/-! SUPPORT. What the blocks' own operations never change: the flash arrays, the pins, the parameters, the alert mask, the
frame receiver, the bits of the flag word that hold no flag, the clock, the count of free values and the queue. One
lemma per operation, so that no later proof unfolds one to find this. -/

-- In order: as one text the package would otherwise start more threads than memory has stacks for.
set_option Elab.async false
set_option linter.all false

namespace Sys2Proof.Machine

/-- The part of State that only reset, flash, pin and management events change. -/
structure Base where
  pins : Pins
  flashA : Flash
  flashB : Flash
  params : Params
  alertMask : BitVec 16
  receiver : Receiver
  noFlag : BitVec 16
  now : Nat
  freeNext : Nat
  pending : List Instr

/-- That part of a state. -/
def State.base (s : State) : Base :=
  { pins := s.pins, flashA := s.flashA, flashB := s.flashB, params := s.mgmt.params, alertMask := s.mgmt.alertMask,
    receiver := s.mgmt.receiver, noFlag := s.mgmt.flags &&& ~~~flagBits, now := s.now, freeNext := s.freeNext,
    pending := s.pending }

/-- A flag's bit is one of those that hold a flag (R176). -/
theorem Flag.mask_noFlag (f : Flag) : f.mask &&& ~~~flagBits = 0#16 := by cases f <;> decide

theorem noFlag_or (w : BitVec 16) (f : Flag) : (w ||| f.mask) &&& ~~~flagBits = w &&& ~~~flagBits := by
  have h := f.mask_noFlag
  apply BitVec.eq_of_getLsbD_eq
  intro i hi
  have h2 := congrArg (fun v => v.getLsbD i) h
  simp only [BitVec.getLsbD_and, BitVec.getLsbD_or, BitVec.getLsbD_zero] at h2 ⊢
  cases hm : f.mask.getLsbD i
  · simp
  · rw [hm] at h2; simp only [Bool.true_and] at h2; simp [h2]

/-! ## Named updates -/

@[simp] theorem staging_base (s : State) (x : Staging) : ({ s with staging := x } : State).base = s.base := rfl
@[simp] theorem service_base (s : State) (x : Service) : ({ s with service := x } : State).base = s.base := rfl
@[simp] theorem blocks_base (s : State) (x : BlockManager) : ({ s with blocks := x } : State).base = s.base := rfl
@[simp] theorem mover_base (s : State) (x : Mover) : ({ s with mover := x } : State).base = s.base := rfl
@[simp] theorem pageMap_base (s : State) (x : List (Nat × MapEntry)) :
    ({ s with pageMap := x } : State).base = s.base := rfl
@[simp] theorem port_base (s : State) (x : Port) : ({ s with port := x } : State).base = s.base := rfl
@[simp] theorem drain_base (s : State) (x : Drain) : ({ s with drain := x } : State).base = s.base := rfl
@[simp] theorem setEntry_base (s : State) (i : Fin 8) (e : Entry) : (s.setEntry i e).base = s.base := rfl
@[simp] theorem setQueue_base (s : State) (q : List (Fin 8)) : (s.setQueue q).base = s.base := rfl
@[simp] theorem setService_base (s : State) (x : ServiceState) : (s.setService x).base = s.base := rfl
@[simp] theorem setActivity_base (s : State) (x : Activity) : (s.setActivity x).base = s.base := rfl
@[simp] theorem setReserveHold_base (s : State) (x : Bool) : (s.setReserveHold x).base = s.base := rfl
@[simp] theorem setEngine_base (s : State) (x : Engine) : (s.setEngine x).base = s.base := rfl
@[simp] theorem modifyRecord_base (s : State) (b : BlockRef) (f : BlockRecord → BlockRecord) : (s.modifyRecord b f).base = s.base := rfl
@[simp] theorem bump_base (s : State) (c : Counter) : (s.bump c).base = s.base := rfl
@[simp] theorem setWait_base (s : State) (w : Wait) : (setWait w s).base = s.base := rfl
@[simp] theorem setCycle_base (s : State) (c : Cycle) : (setCycle c s).base = s.base := rfl
@[simp] theorem setReturn_base (s : State) (r : Option ReturnState) : (setReturn r s).base = s.base := rfl
@[simp] theorem dropLine_base (s : State) : (dropLine s).base = s.base := rfl
@[simp] theorem setRestart_base (s : State) : (setRestart s).base = s.base := rfl
@[simp] theorem setSerial_base (s : State) (n : BitVec 16) : (setSerial n s).base = s.base := rfl
@[simp] theorem setVolume_base (s : State) (pages banks : Nat) : (setVolume pages banks s).base = s.base := rfl
@[simp] theorem fillBuffer_base (s : State) (l : List Byte) : (fillBuffer l s).base = s.base := rfl
@[simp] theorem noteGrant_base (s : State) (g : LastGrant) : (noteGrant g s).base = s.base := rfl
@[simp] theorem advanceScan_base (s : State) : (advanceScan s).base = s.base := rfl
@[simp] theorem setBank_base (s : State) (bk : BankId) (k : BankCtl) : (s.setBank bk k).base = s.base := by
  cases bk <;> rfl
@[simp] theorem setFlag_base (s : State) (f : Flag) : (s.setFlag f).base = s.base := by
  simp only [State.base, State.setFlag, noFlag_or]

/-! ## Bank controllers -/

@[simp] theorem handOver_base (s : State) (bk : BankId) (c : ReqClass) (op : ReqOp) :
    (handOver bk c op s).base = s.base := by
  first
  | rfl
  | simp only [handOver]; (repeat' split) <;> first | rfl | simp

@[simp] theorem handErase_base (s : State) (r : EraseRequest) : (handErase r s).base = s.base := by
  first
  | rfl
  | simp only [handErase]; (repeat' split) <;> first | rfl | simp

@[simp] theorem beginAction_base (s : State) (bk : BankId) (c : ReqClass) (a : Action) :
    (beginAction bk c a s).base = s.base := by
  first
  | rfl
  | simp only [beginAction]; (repeat' split) <;> first | rfl | simp

@[simp] theorem beginHostRead_base (s : State) (bk : BankId) (h : HostRead) : (beginHostRead bk h s).base = s.base := by
  first
  | rfl
  | simp only [beginHostRead]; (repeat' split) <;> first | rfl | simp

@[simp] theorem beginClass_base (s : State) (bk : BankId) (c : ReqClass) : (beginClass bk c s).base = s.base := by
  first
  | rfl
  | simp only [beginClass]; (repeat' split) <;> first | rfl | simp

@[simp] theorem beginErase_base (s : State) (bk : BankId) (r : EraseRequest) : (beginErase bk r s).base = s.base := by
  first
  | rfl
  | simp only [beginErase]; (repeat' split) <;> first | rfl | simp

@[simp] theorem requestSuspend_base (s : State) (bk : BankId) (c : SuspendCause) (h : Bool) :
    (requestSuspend bk c h s).base = s.base := by
  first
  | rfl
  | simp only [requestSuspend]; (repeat' split) <;> first | rfl | simp

@[simp] theorem resumeErase_base (s : State) (bk : BankId) : (resumeErase bk s).base = s.base := by
  first
  | rfl
  | simp only [resumeErase]; (repeat' split) <;> first | rfl | simp

@[simp] theorem beginBankReset_base (s : State) (bk : BankId) : (beginBankReset bk s).base = s.base := by
  first
  | rfl
  | simp only [beginBankReset]; (repeat' split) <;> first | rfl | simp

@[simp] theorem chooseIdle_base (s : State) (bk : BankId) : (chooseIdle bk s).base = s.base := by
  first
  | rfl
  | simp only [chooseIdle]; (repeat' split) <;> first | rfl | simp

@[simp] theorem chooseSuspended_base (s : State) (bk : BankId) (h : Bool) : (chooseSuspended bk h s).base = s.base := by
  first
  | rfl
  | simp only [chooseSuspended]; (repeat' split) <;> first | rfl | simp

@[simp] theorem decideSuspend_base (s : State) (bk : BankId) (c : EraseContext) :
    (decideSuspend bk c s).base = s.base := by
  first
  | rfl
  | simp only [decideSuspend]; (repeat' split) <;> first | rfl | simp

@[simp] theorem kickBank_base (s : State) (bk : BankId) : (kickBank bk s).base = s.base := by
  first
  | rfl
  | simp only [kickBank]; (repeat' split) <;> first | rfl | simp

@[simp] theorem kickBanks_base (s : State) : (kickBanks s).base = s.base := by
  first
  | rfl
  | simp only [kickBanks]; (repeat' split) <;> first | rfl | simp

@[simp] theorem endAction_base (s : State) (bk : BankId) : (endAction bk s).base = s.base := by
  first
  | rfl
  | simp only [endAction]; (repeat' split) <;> first | rfl | simp

@[simp] theorem handHostRead_base (s : State) (x : SlotRef) (o : Nat) : (handHostRead x o s).base = s.base := by
  first
  | rfl
  | simp only [handHostRead]; (repeat' split) <;> first | rfl | simp

@[simp] theorem withdrawHostRead_base (s : State) (bk : BankId) : (withdrawHostRead bk s).base = s.base := by
  first
  | rfl
  | simp only [withdrawHostRead]; (repeat' split) <;> first | rfl | simp


/-! ## Staging buffer -/

@[simp] theorem completeCycle_base (s : State) (f : Bool) (d : Option HalfWord) :
    (completeCycle f d s).base = s.base := by
  first
  | rfl
  | simp only [completeCycle]; (repeat' split) <;> first | rfl | simp

@[simp] theorem refuseWrite_base (s : State) : (refuseWrite s).base = s.base := by
  first
  | rfl
  | simp only [refuseWrite]; (repeat' split) <;> first | rfl | simp

@[simp] theorem refuseHeld_base (s : State) : (refuseHeld s).base = s.base := by
  first
  | rfl
  | simp only [refuseHeld]; (repeat' split) <;> first | rfl | simp

@[simp] theorem closeEntry_base (s : State) (i : Fin 8) : (closeEntry i s).base = s.base := by
  first
  | rfl
  | simp only [closeEntry]; (repeat' split) <;> first | rfl | simp

theorem foldl_base {α : Type} (f : State → α → State) (h : ∀ s a, (f s a).base = s.base) (l : List α) (s : State) :
    (l.foldl f s).base = s.base := by
  induction l generalizing s with
  | nil => rfl
  | cons a t ih => rw [List.foldl_cons, ih, h]

@[simp] theorem closeAll_base (s : State) : (closeAll s).base = s.base :=
  foldl_base _ (fun s i => closeEntry_base s i) _ _

@[simp] theorem openEntry_base (s : State) (i : Fin 8) (p : Nat) : (openEntry i p s).base = s.base := by
  first
  | rfl
  | simp only [openEntry]; (repeat' split) <;> first | rfl | simp

@[simp] theorem mergeWrite_base (s : State) (i : Fin 8) (o : Nat) (lo up : Bool) (d : HalfWord) :
    (mergeWrite i o lo up d s).base = s.base := by
  first
  | rfl
  | simp only [mergeWrite]; (repeat' split) <;> first | rfl | simp

theorem absorbWrite_base {s t : State} {c : Cycle} (h : absorbWrite c s = some t) : t.base = s.base := by
  simp only [absorbWrite] at h
  split at h
  · obtain rfl := Option.some.inj h; simp
  · split at h
    · obtain rfl := Option.some.inj h; simp
    · cases h

@[simp] theorem evictOldest_base (s : State) : (evictOldest s).base = s.base := by
  first
  | rfl
  | simp only [evictOldest]; (repeat' split) <;> first | rfl | simp

@[simp] theorem handWrite_base (s : State) (c : Cycle) : (handWrite c s).base = s.base := by
  unfold handWrite
  split
  · next h => exact absorbWrite_base h
  · simp

@[simp] theorem retryHeld_base (s : State) : (retryHeld s).base = s.base := by
  unfold retryHeld
  split
  · next c hc =>
    cases h : absorbWrite c s with
    | none => rfl
    | some t => exact absorbWrite_base h
  · rfl

@[simp] theorem releaseEntry_base (s : State) (i : Fin 8) : (releaseEntry i s).base = s.base := by
  first
  | rfl
  | simp only [releaseEntry]; (repeat' split) <;> first | rfl | simp

@[simp] theorem startEntry_base (s : State) (i : Fin 8) : (startEntry i s).base = s.base := by
  first
  | rfl
  | simp only [startEntry]; (repeat' split) <;> first | rfl | simp

@[simp] theorem deferEntry_base (s : State) (i : Fin 8) : (deferEntry i s).base = s.base := by
  first
  | rfl
  | simp only [deferEntry]; (repeat' split) <;> first | rfl | simp

@[simp] theorem resumeEntry_base (s : State) : (resumeEntry s).base = s.base := by
  first
  | rfl
  | simp only [resumeEntry]; (repeat' split) <;> first | rfl | simp


@[simp] theorem flushStaging_base (s : State) : (flushStaging s).base = s.base := by
  simp only [flushStaging]; split <;> simp


@[simp] theorem addCause_base (s : State) (c : Cause) : (addCause c s).base = s.base := by
  simp only [addCause]; (repeat' split) <;> simp


/-! ## Block manager -/

@[simp] theorem serveBank_base (s : State) (bk : BankId) : (serveBank bk s).base = s.base := by
  first
  | rfl
  | simp only [serveBank]; (repeat' split) <;> first | rfl | simp

@[simp] theorem serveErases_base (s : State) : (serveErases s).base = s.base := by
  first
  | rfl
  | simp only [serveErases]; (repeat' split) <;> first | rfl | simp

@[simp] theorem joinErase_base (s : State) (b : BlockRef) : (joinErase b s).base = s.base := by
  first
  | rfl
  | simp only [joinErase]; (repeat' split) <;> first | rfl | simp

@[simp] theorem chooseVictim_base (s : State) (k : ReclaimKind) (b : BlockRef) :
    (chooseVictim k b s).base = s.base := by
  first
  | rfl
  | simp only [chooseVictim]; (repeat' split) <;> first | rfl | simp

@[simp] theorem evaluateTriggers_base (s : State) : (evaluateTriggers s).base = s.base := by
  first
  | rfl
  | simp only [evaluateTriggers]; (repeat' split) <;> first | rfl | simp

@[simp] theorem finishVictim_base (s : State) : (finishVictim s).base = s.base := by
  first
  | rfl
  | simp only [finishVictim]; (repeat' split) <;> first | rfl | simp

@[simp] theorem livePlus_base (s : State) (b : BlockRef) : (livePlus b s).base = s.base := by
  first
  | rfl
  | simp only [livePlus]; (repeat' split) <;> first | rfl | simp

@[simp] theorem liveMinus_base (s : State) (b : BlockRef) (c : Bool) : (liveMinus b c s).base = s.base := by
  first
  | rfl
  | simp only [liveMinus]; (repeat' split) <;> first | rfl | simp

@[simp] theorem condemn_base (s : State) (b : BlockRef) : (condemn b s).base = s.base := by
  first
  | rfl
  | simp only [condemn]; (repeat' split) <;> first | rfl | simp

@[simp] theorem movedNotice_base (s : State) : (movedNotice s).base = s.base := by
  first
  | rfl
  | simp only [movedNotice]; (repeat' split) <;> first | rfl | simp

@[simp] theorem takeSlot_base (s : State) (b : BlockRef) (n : Nat) : (takeSlot b n s).base = s.base := by
  first
  | rfl
  | simp only [takeSlot]; (repeat' split) <;> first | rfl | simp

@[simp] theorem takeBlock_base (s : State) (b : BlockRef) (r : BlockRecord) : (takeBlock b r s).base = s.base := by
  first
  | rfl
  | simp only [takeBlock]; (repeat' split) <;> first | rfl | simp

@[simp] theorem slotRequest_base (s : State) (q : Requester) : (slotRequest q s).2.base = s.base := by
  simp only [slotRequest]; (repeat' split) <;> simp

@[simp] theorem capacityCheck_base (s : State) : (capacityCheck s).base = s.base := by
  first
  | rfl
  | simp only [capacityCheck]; (repeat' split) <;> first | rfl | simp

@[simp] theorem requestRetired_base (s : State) (b : BlockRef) (n : Nat) : (requestRetired b n s).base = s.base := by
  first
  | rfl
  | simp only [requestRetired]; (repeat' split) <;> first | rfl | simp

@[simp] theorem bumpIf_base (s : State) (b : Bool) (c : Counter) : (s.bumpIf b c).base = s.base := by
  cases b <;> rfl

@[simp] theorem takeEraseResult_base (s : State) (b : BlockRef) (p : Bool) : (takeEraseResult b p s).base = s.base := by
  first
  | rfl
  | simp only [takeEraseResult]; (repeat' split) <;> first | rfl | simp

@[simp] theorem freshPassed_base (s : State) (b : BlockRef) : (freshPassed b s).base = s.base := by
  first
  | rfl
  | simp only [freshPassed]; (repeat' split) <;> first | rfl | simp

@[simp] theorem retireBlock_base (s : State) (b : BlockRef) : (retireBlock b s).base = s.base := by
  first
  | rfl
  | simp only [retireBlock]; (repeat' split) <;> first | rfl | simp

@[simp] theorem takeDescriptorResult_base (s : State) (b : BlockRef) (g : DescProgram) (p : Bool) :
    (takeDescriptorResult b g p s).base = s.base := by
  first
  | rfl
  | simp only [takeDescriptorResult]; (repeat' split) <;> first | rfl | simp

@[simp] theorem enterActive_base (s : State) : (enterActive s).base = s.base := by
  first
  | rfl
  | simp only [enterActive]; (repeat' split) <;> first | rfl | simp

@[simp] theorem takeTable_base (s : State) (t : List (BlockRef × BlockRecord)) : (takeTable t s).base = s.base := by
  first
  | rfl
  | simp only [takeTable]; (repeat' split) <;> first | rfl | simp


/-! ## Page mover -/

@[simp] theorem moverAsks_base (s : State) (r : OpRecord) (p : Phase) (bk : BankId) (op : ReqOp) :
    (moverAsks r p bk op s).base = s.base := by
  first
  | rfl
  | simp only [moverAsks]; (repeat' split) <;> first | rfl | simp

@[simp] theorem endCommit_base (s : State) (i : Fin 8) (c : Counter) : (endCommit i c s).base = s.base := by
  first
  | rfl
  | simp only [endCommit]; (repeat' split) <;> first | rfl | simp

@[simp] theorem deferCommit_base (s : State) (i : Fin 8) : (deferCommit i s).base = s.base := by
  first
  | rfl
  | simp only [deferCommit]; (repeat' split) <;> first | rfl | simp

@[simp] theorem stickCommit_base (s : State) (i : Fin 8) : (stickCommit i s).base = s.base := by
  first
  | rfl
  | simp only [stickCommit]; (repeat' split) <;> first | rfl | simp

@[simp] theorem haltReclaim_base (s : State) : (haltReclaim s).base = s.base := by
  first
  | rfl
  | simp only [haltReclaim]; (repeat' split) <;> first | rfl | simp

@[simp] theorem noSlot_base (s : State) (r : OpRecord) : (noSlot r s).base = s.base := by
  first
  | rfl
  | simp only [noSlot]; (repeat' split) <;> first | rfl | simp

@[simp] theorem beginWrite_base (s : State) (r : OpRecord) (n : SlotRef) : (beginWrite r n s).base = s.base := by
  first
  | rfl
  | simp only [beginWrite]; (repeat' split) <;> first | rfl | simp

@[simp] theorem seekSlot_base (s : State) (r : OpRecord) : (seekSlot r s).base = s.base := by
  have h := slotRequest_base s r.requester
  simp only [seekSlot]
  split <;> (next he => rw [he] at h; simpa using h)

@[simp] theorem writeData_base (s : State) (r : OpRecord) (n : SlotRef) (h : Nat) :
    (writeData r n h s).base = s.base := by
  first
  | rfl
  | simp only [writeData]; (repeat' split) <;> first | rfl | simp

@[simp] theorem failAttempt_base (s : State) (r : OpRecord) (n : SlotRef) : (failAttempt r n s).base = s.base := by
  first
  | rfl
  | simp only [failAttempt]; (repeat' split) <;> first | rfl | simp

@[simp] theorem afterFailedAttempt_base (s : State) (r : OpRecord) (n : SlotRef) :
    (afterFailedAttempt r n s).base = s.base := by
  first
  | rfl
  | simp only [afterFailedAttempt]; (repeat' split) <;> first | rfl | simp

@[simp] theorem endWrite_base (s : State) (r : OpRecord) : (endWrite r s).base = s.base := by
  first
  | rfl
  | simp only [endWrite]; (repeat' split) <;> first | rfl | simp

@[simp] theorem mapUpdate_base (s : State) (r : OpRecord) (n : SlotRef) : (mapUpdate r n s).base = s.base := by
  first
  | rfl
  | simp only [mapUpdate]; (repeat' split) <;> first | rfl | simp

@[simp] theorem writeInPlace_base (s : State) (r : OpRecord) (i : Fin 8) (x : SlotRef) (h : Nat) :
    (writeInPlace r i x h s).base = s.base := by
  first
  | rfl
  | simp only [writeInPlace]; (repeat' split) <;> first | rfl | simp

@[simp] theorem decideCommit_base (s : State) (r : OpRecord) (i : Fin 8) : (decideCommit r i s).base = s.base := by
  first
  | rfl
  | simp only [decideCommit]; (repeat' split) <;> first | rfl | simp

@[simp] theorem startCommit_base (s : State) (i : Fin 8) : (startCommit i s).base = s.base := by
  simp only [startCommit]
  split
  · simp only [moverAsks_base, setActivity_base, startEntry_base]
  · simp only [decideCommit_base, fillBuffer_base, setActivity_base, startEntry_base]

@[simp] theorem scanNext_base (s : State) : (scanNext s).base = s.base := by
  unfold scanNext
  split
  · split
    · rw [handOver_base, setActivity_base]
    · rw [finishVictim_base, setActivity_base]
  · rfl

@[simp] theorem scanEntry_base (s : State) (l : List Byte) : (scanEntry l s).base = s.base := by
  first
  | rfl
  | simp only [scanEntry]; (repeat' split) <;> first | rfl | simp

@[simp] theorem moverReadDone_base (s : State) (l : List Byte) : (moverReadDone l s).base = s.base := by
  first
  | rfl
  | simp only [moverReadDone]; (repeat' split) <;> first | rfl | simp

@[simp] theorem moverProgramDone_base (s : State) (p : Bool) : (moverProgramDone p s).base = s.base := by
  first
  | rfl
  | simp only [moverProgramDone]; (repeat' split) <;> first | rfl | simp

@[simp] theorem inUseDone_base (s : State) (b : BlockRef) (p : Bool) : (inUseDone b p s).base = s.base := by
  first
  | rfl
  | simp only [inUseDone]; (repeat' split) <;> first | rfl | simp

@[simp] theorem grantOnce_base (s : State) : (grantOnce s).base = s.base := by
  first
  | rfl
  | simp only [grantOnce]; (repeat' split) <;> first | rfl | simp

@[simp] theorem arbitrate_base (n : Nat) (s : State) : (arbitrate n s).base = s.base := by
  induction n generalizing s with
  | zero => rfl
  | succ n ih => simp only [arbitrate]; split <;> simp [ih]

@[simp] theorem settle_base (s : State) : (settle s).base = s.base := by
  first
  | rfl
  | simp only [settle]; (repeat' split) <;> first | rfl | simp


/-! ## Host port -/

@[simp] theorem completeRead_base (s : State) (c : Cycle) (d : HalfWord) : (completeRead c d s).base = s.base := by
  first
  | rfl
  | simp only [completeRead]; (repeat' split) <;> first | rfl | simp

@[simp] theorem askBank_base (s : State) (c : Cycle) (x : SlotRef) : (askBank c x s).base = s.base := by
  first
  | rfl
  | simp only [askBank]; (repeat' split) <;> first | rfl | simp

@[simp] theorem resolveRead_base (s : State) (c : Cycle) : (resolveRead c s).base = s.base := by
  first
  | rfl
  | simp only [resolveRead]; (repeat' split) <;> first | rfl | simp

@[simp] theorem hostReadDone_base (s : State) (bk : BankId) (l : List Byte) : (hostReadDone bk l s).base = s.base := by
  first
  | rfl
  | simp only [hostReadDone]; (repeat' split) <;> first | rfl | simp

@[simp] theorem faultRange_base (s : State) (c : Cycle) : (faultRange c s).base = s.base := by
  first
  | rfl
  | simp only [faultRange]; (repeat' split) <;> first | rfl | simp

@[simp] theorem stageWrite_base (s : State) (c : Cycle) : (stageWrite c s).base = s.base := by
  first
  | rfl
  | simp only [stageWrite]; (repeat' split) <;> first | rfl | simp

@[simp] theorem treatInRange_base (s : State) (c : Cycle) : (treatInRange c s).base = s.base := by
  first
  | rfl
  | simp only [treatInRange]; (repeat' split) <;> first | rfl | simp

@[simp] theorem treatNoVolume_base (s : State) (f : Bool) (c : Cycle) : (treatNoVolume f c s).base = s.base := by
  first
  | rfl
  | simp only [treatNoVolume]; (repeat' split) <;> first | rfl | simp

@[simp] theorem treatCycle_base (s : State) (c : Cycle) : (treatCycle c s).base = s.base := by
  first
  | rfl
  | simp only [treatCycle]; (repeat' split) <;> first | rfl | simp

@[simp] theorem arrive_base (s : State) (c : Cycle) : (arrive c s).base = s.base := by
  first
  | rfl
  | simp only [arrive]; (repeat' split) <;> first | rfl | simp

@[simp] theorem arriveFromPins_base (s : State) : (arriveFromPins s).base = s.base := by
  first
  | rfl
  | simp only [arriveFromPins]; (repeat' split) <;> first | rfl | simp

@[simp] theorem releaseMountHold_base (s : State) : (releaseMountHold s).base = s.base := by
  first
  | rfl
  | simp only [releaseMountHold]; (repeat' split) <;> first | rfl | simp

@[simp] theorem withdrawCycleRead_base (s : State) (c : Cycle) : (withdrawCycleRead c s).base = s.base := by
  first
  | rfl
  | simp only [withdrawCycleRead]; (repeat' split) <;> first | rfl | simp

@[simp] theorem expireHold_base (s : State) : (expireHold s).base = s.base := by
  first
  | rfl
  | simp only [expireHold]; (repeat' split) <;> first | rfl | simp


/-! ## Volume engine and drain control -/

@[simp] theorem assertLine_base (s : State) : (assertLine s).base = s.base := by
  first
  | rfl
  | simp only [assertLine]; (repeat' split) <;> first | rfl | simp

@[simp] theorem beginMount_base (s : State) : (beginMount s).base = s.base := by
  first
  | rfl
  | simp only [beginMount]; (repeat' split) <;> first | rfl | simp

@[simp] theorem startScan_base (s : State) (bk : BankId) (w : MountWork) : (startScan bk w s).base = s.base := by
  first
  | rfl
  | simp only [startScan]; (repeat' split) <;> first | rfl | simp

@[simp] theorem mountResetDone_base (s : State) (bk : BankId) (w : MountWork) :
    (mountResetDone bk w s).base = s.base := by
  first
  | rfl
  | simp only [mountResetDone]; (repeat' split) <;> first | rfl | simp

@[simp] theorem endUnformatted_base (s : State) : (endUnformatted s).base = s.base := by
  first
  | rfl
  | simp only [endUnformatted]; (repeat' split) <;> first | rfl | simp

@[simp] theorem mountRecordRead_base (s : State) (l : List Byte) (w : MountWork) :
    (mountRecordRead l w s).base = s.base := by
  first
  | rfl
  | simp only [mountRecordRead]; (repeat' split) <;> first | rfl | simp

@[simp] theorem mountBlockRead_base (s : State) (bk : BankId) (b : BlockRef) (t : List BlockRef) (l : List Byte) (w : MountWork) :
    (mountBlockRead bk b t l w s).base = s.base := by
  first
  | rfl
  | simp only [mountBlockRead]; (repeat' split) <;> first | rfl | simp

@[simp] theorem startRepairs_base (s : State) (bk : BankId) (l : List SlotRef) :
    (startRepairs bk l s).base = s.base := by
  first
  | rfl
  | simp only [startRepairs]; (repeat' split) <;> first | rfl | simp

@[simp] theorem chooseMount_base (s : State) : (chooseMount s).base = s.base := by
  unfold chooseMount
  split
  · simp only [startRepairs_base]; rfl
  · rfl
  · rfl

@[simp] theorem mountRepairDone_base (s : State) (bk : BankId) (x : SlotRef) (t : List SlotRef) (p : Bool) (w : MountWork) :
    (mountRepairDone bk x t p w s).base = s.base := by
  first
  | rfl
  | simp only [mountRepairDone]; (repeat' split) <;> first | rfl | simp

@[simp] theorem endMount_base (s : State) : (endMount s).base = s.base := by
  first
  | rfl
  | simp only [endMount]; (repeat' split) <;> first | rfl | simp

@[simp] theorem takeFormat_base (s : State) (n : Nat) : (takeFormat n s).base = s.base := by
  first
  | rfl
  | simp only [takeFormat]; (repeat' split) <;> first | rfl | simp

@[simp] theorem failFormat_base (s : State) : (failFormat s).base = s.base := by
  first
  | rfl
  | simp only [failFormat]; (repeat' split) <;> first | rfl | simp

@[simp] theorem startFormatBank_base (s : State) (bk : BankId) : (startFormatBank bk s).base = s.base := by
  first
  | rfl
  | simp only [startFormatBank]; (repeat' split) <;> first | rfl | simp

@[simp] theorem formatBlockRead_base (s : State) (bk : BankId) (b : BlockRef) (t : List BlockRef) (l : List Byte) (w : FormatWork) :
    (formatBlockRead bk b t l w s).base = s.base := by
  first
  | rfl
  | simp only [formatBlockRead]; (repeat' split) <;> first | rfl | simp

@[simp] theorem formatNext_base (s : State) (bk : BankId) (t : List BlockRef) (w : FormatWork) :
    (formatNext bk t w s).base = s.base := by
  first
  | rfl
  | simp only [formatNext]; (repeat' split) <;> first | rfl | simp

@[simp] theorem formatStartBlocks_base (s : State) (bk : BankId) : (formatStartBlocks bk s).base = s.base := by
  first
  | rfl
  | simp only [formatStartBlocks]; (repeat' split) <;> first | rfl | simp

@[simp] theorem formatRetire_base (s : State) (bk : BankId) (n : Nat) (b : BlockRef) (t : List BlockRef) (w : FormatWork) :
    (formatRetire bk n b t w s).base = s.base := by
  first
  | rfl
  | simp only [formatRetire]; (repeat' split) <;> first | rfl | simp

@[simp] theorem formatBlockErased_base (s : State) (bk : BankId) (n : Nat) (b : BlockRef) (t : List BlockRef) (p : Bool) (w : FormatWork) :
    (formatBlockErased bk n b t p w s).base = s.base := by
  first
  | rfl
  | simp only [formatBlockErased]; (repeat' split) <;> first | rfl | simp

@[simp] theorem formatBlockMade_base (s : State) (bk : BankId) (b : BlockRef) (r : BlockRecord) (t : List BlockRef) (w : FormatWork) :
    (formatBlockMade bk b r t w s).base = s.base := by
  first
  | rfl
  | simp only [formatBlockMade]; (repeat' split) <;> first | rfl | simp

@[simp] theorem writeRecordHalf_base (s : State) (h : Fin 256) (w : FormatWork) :
    (writeRecordHalf h w s).base = s.base := by
  first
  | rfl
  | simp only [writeRecordHalf]; (repeat' split) <;> first | rfl | simp

@[simp] theorem startRecord_base (s : State) : (startRecord s).base = s.base := by
  first
  | rfl
  | simp only [startRecord]; (repeat' split) <;> first | rfl | simp

@[simp] theorem completeFormat_base (s : State) (w : FormatWork) : (completeFormat w s).base = s.base := by
  unfold completeFormat
  simp only [setFlag_base, enterActive_base, setEngine_base, takeTable_base]
  rfl

@[simp] theorem formatRecordDone_base (s : State) (h : Fin 256) (p : Bool) (w : FormatWork) :
    (formatRecordDone h p w s).base = s.base := by
  first
  | rfl
  | simp only [formatRecordDone]; (repeat' split) <;> first | rfl | simp

@[simp] theorem volumeResetDone_base (s : State) (bk : BankId) : (volumeResetDone bk s).base = s.base := by
  first
  | rfl
  | simp only [volumeResetDone]; (repeat' split) <;> first | rfl | simp

@[simp] theorem volumeReadDone_base (s : State) (bk : BankId) (l : List Byte) :
    (volumeReadDone bk l s).base = s.base := by
  first
  | rfl
  | simp only [volumeReadDone]; (repeat' split) <;> first | rfl | simp

@[simp] theorem volumeProgramDone_base (s : State) (bk : BankId) (p : Bool) :
    (volumeProgramDone bk p s).base = s.base := by
  unfold volumeProgramDone
  split
  · rfl
  · split
    · rw [mountRepairDone_base]
    · rfl
  · next w _ =>
    generalize (w.bank bk).phase = ph
    cases hs : w.stage with
    | record half => cases w.abandoned <;> first | rfl | exact formatRecordDone_base ..
    | reading => cases w.abandoned <;> rfl
    | erasingVolume => cases w.abandoned <;> rfl
    | blocks =>
      cases w.abandoned
      · cases ph with
        | freshing n l =>
          cases l
          · rfl
          · cases p
            · exact formatRetire_base ..
            · exact formatBlockMade_base ..
        | retiring n l =>
          cases l
          · rfl
          · exact (formatBlockMade_base ..).trans (setFlag_base ..)
        | _ => rfl
      · rfl

@[simp] theorem takeVolumeErase_base (s : State) (bk : BankId) (p : Bool) : (takeVolumeErase bk p s).base = s.base := by
  first
  | rfl
  | simp only [takeVolumeErase]; (repeat' split) <;> first | rfl | simp

@[simp] theorem withdrawUnbegun_base (s : State) (bk : BankId) : (withdrawUnbegun bk s).base = s.base := by
  first
  | rfl
  | simp only [withdrawUnbegun]; (repeat' split) <;> first | rfl | simp

@[simp] theorem abandonFormat_base (s : State) : (abandonFormat s).base = s.base := by
  first
  | rfl
  | simp only [abandonFormat]; (repeat' split) <;> first | rfl | simp

@[simp] theorem startDrain_base (s : State) : (startDrain s).base = s.base := by
  first
  | rfl
  | simp only [startDrain]; (repeat' split) <;> first | rfl | simp

@[simp] theorem setPowerHold_base (s : State) (h : Bool) (bk : BankId) : (setPowerHold h bk s).base = s.base := by
  first
  | rfl
  | simp only [setPowerHold]; (repeat' split) <;> first | rfl | simp

@[simp] theorem holdBank_base (s : State) (bk : BankId) : (holdBank bk s).base = s.base := by
  first
  | rfl
  | simp only [holdBank]; (repeat' split) <;> first | rfl | simp

@[simp] theorem holdBanks_base (s : State) : (holdBanks s).base = s.base := by
  first
  | rfl
  | simp only [holdBanks]; (repeat' split) <;> first | rfl | simp

@[simp] theorem releaseBanks_base (s : State) : (releaseBanks s).base = s.base := by
  first
  | rfl
  | simp only [releaseBanks]; (repeat' split) <;> first | rfl | simp

@[simp] theorem pfailAtDrain_base (s : State) : (pfailAtDrain s).base = s.base := by
  first
  | rfl
  | simp only [pfailAtDrain]; (repeat' split) <;> first | rfl | simp

@[simp] theorem resumeCommit_base (s : State) : (resumeCommit s).base = s.base := by
  first
  | rfl
  | simp only [resumeCommit]; (repeat' split) <;> first | rfl | simp


/-! ## Flash events -/

@[simp] theorem reportRead_base (s : State) (bk : BankId) (c : ReqClass) (l : List Byte) :
    (reportRead bk c l s).base = s.base := by
  first
  | rfl
  | simp only [reportRead]; (repeat' split) <;> first | rfl | simp

@[simp] theorem emptySlot_base (s : State) (bk : BankId) (c : ReqClass) : (emptySlot bk c s).base = s.base := by
  first
  | rfl
  | simp only [emptySlot]; (repeat' split) <;> first | rfl | simp

@[simp] theorem replaceOp_base (s : State) (bk : BankId) (c : ReqClass) (r : Request) (op : ReqOp) :
    (replaceOp bk c r op s).base = s.base := by
  first
  | rfl
  | simp only [replaceOp]; (repeat' split) <;> first | rfl | simp

@[simp] theorem finishRead_base (s : State) (bk : BankId) (c : ReqClass) (l : List Byte) :
    (finishRead bk c l s).base = s.base := by
  first
  | rfl
  | simp only [finishRead]; (repeat' split) <;> first | rfl | simp

@[simp] theorem afterRead_base (s : State) (c : ReqClass) : (afterRead c s).base = s.base := by
  first
  | rfl
  | simp only [afterRead]; (repeat' split) <;> first | rfl | simp

@[simp] theorem setAction_base (s : State) (bk : BankId) (a : Active) : (setAction bk a s).base = s.base := by
  first
  | rfl
  | simp only [setAction]; (repeat' split) <;> first | rfl | simp

@[simp] theorem reportDescriptor_base (s : State) (bk : BankId) (c : ReqClass) (b : BlockRef) (g : DescProgram) (p : Bool) :
    (reportDescriptor bk c b g p s).base = s.base := by
  first
  | rfl
  | simp only [reportDescriptor]; (repeat' split) <;> first | rfl | simp

@[simp] theorem reportProgram_base (s : State) (bk : BankId) (c : ReqClass) (p : Bool) :
    (reportProgram bk c p s).base = s.base := by
  first
  | rfl
  | simp only [reportProgram]; (repeat' split) <;> first | rfl | simp

@[simp] theorem finishProgram_base (s : State) (bk : BankId) (c : ReqClass) (p : Bool) :
    (finishProgram bk c p s).base = s.base := by
  first
  | rfl
  | simp only [finishProgram]; (repeat' split) <;> first | rfl | simp

@[simp] theorem reportErase_base (s : State) (bk : BankId) (c : EraseContext) (p : Bool) :
    (reportErase bk c p s).base = s.base := by
  first
  | rfl
  | simp only [reportErase]; (repeat' split) <;> first | rfl | simp

@[simp] theorem idleBank_base (s : State) (bk : BankId) : (idleBank bk s).base = s.base := by
  first
  | rfl
  | simp only [idleBank]; (repeat' split) <;> first | rfl | simp

@[simp] theorem suspendBank_base (s : State) (bk : BankId) : (suspendBank bk s).base = s.base := by
  first
  | rfl
  | simp only [suspendBank]; (repeat' split) <;> first | rfl | simp

@[simp] theorem stopQuantum_base (s : State) (bk : BankId) : (stopQuantum bk s).base = s.base := by
  first
  | rfl
  | simp only [stopQuantum]; (repeat' split) <;> first | rfl | simp

@[simp] theorem endBankReset_base (s : State) (bk : BankId) : (endBankReset bk s).base = s.base := by
  first
  | rfl
  | simp only [endBankReset]; (repeat' split) <;> first | rfl | simp

end Sys2Proof.Machine
end

