-- ==== Sys2Proof/Laws/Settle.lean ====
section
/-! SUPPORT. What the arbiter and the banks' choices after an event leave as it was, one lemma per operation: the page
map, drain control, the volume engine, the service controller but for the causes COMMIT STUCK and RECLAIM HALTED, the
counters their work does not move, and every block's live count. -/

-- In order: as one text the package would otherwise start more threads than memory has stacks for.
set_option Elab.async false
set_option linter.all false

namespace Sys2Proof.Machine

/-- The counters that a grant or a bank's choice may move. -/
def Counter.settles : Counter → Bool
  | .hostWrites => true
  | .silentCommits => true
  | .inPlaceCommits => true
  | _ => false

/-- The causes a grant may hand to the latch. -/
def Cause.settles : Cause → Bool
  | .capacity => false
  | .commitStuck => true
  | .reclaimHalted => true

/-- The part of State that the arbiter and the banks' choices leave as it was, besides `Base`. -/
structure Kept where
  pageMap : List (Nat × MapEntry)
  drain : Drain
  engine : Engine
  service : Service
  counts : List (BitVec 32)
  lives : List (BlockRef × Nat)

/-- That part of a state. -/
def State.kept (s : State) : Kept :=
  { pageMap := s.pageMap, drain := s.drain, engine := s.engine,
    service := { s.service with latch := { capacity := s.service.latch.capacity, commitStuck := false,
                                           reclaimHalted := false } },
    counts := [s.counter .hostReads, s.counter .relocations, s.counter .reclaimMoves, s.counter .erases,
               s.counter .eraseSuspends, s.counter .holdTimeouts, s.counter .programFailures],
    lives := s.blocks.records.map fun p => (p.1, p.2.live) }

theorem Counter.id_inj {c d : Counter} (h : c.id = d.id) : c = d := by
  revert h; cases c <;> cases d <;> decide

theorem counter_bump_ne (s : State) {c d : Counter} (h : d ≠ c) : (s.bump c).counter d = s.counter d := by
  have hne : (c.id : Nat) ≠ (d.id : Nat) := fun e => h (Counter.id_inj (Fin.ext e.symm))
  simp [State.counter, State.bump, Vector.getElem_set, hne]

@[simp] theorem counter_bump (s : State) (c : Counter) : (s.bump c).counter c = saturatingSucc (s.counter c) := by
  simp [State.counter, State.bump]

/-! ## Named updates -/

@[simp] theorem staging_kept (s : State) (x : Staging) : ({ s with staging := x } : State).kept = s.kept := rfl
@[simp] theorem mover_kept (s : State) (x : Mover) : ({ s with mover := x } : State).kept = s.kept := rfl
@[simp] theorem port_kept (s : State) (x : Port) : ({ s with port := x } : State).kept = s.kept := rfl
@[simp] theorem bump_kept (s : State) (c : Counter) (h : c.settles = true) : (s.bump c).kept = s.kept := by
  have hne : ∀ d : Counter, d.settles = false → (s.bump c).counter d = s.counter d := fun d hd =>
    counter_bump_ne s (fun e => by rw [e, h] at hd; cases hd)
  simp only [State.kept, hne .hostReads rfl, hne .relocations rfl, hne .reclaimMoves rfl, hne .erases rfl,
    hne .eraseSuspends rfl, hne .holdTimeouts rfl, hne .programFailures rfl]
  rfl
@[simp] theorem modifyRecord_kept (s : State) (b : BlockRef) (f : BlockRecord → BlockRecord)
    (h : ∀ r, (f r).live = r.live) : (s.modifyRecord b f).kept = s.kept := by
  simp only [State.kept, State.modifyRecord, List.map_map, State.counter]
  congr 1
  apply List.map_congr_left
  intro p _
  simp only [Function.comp]
  split <;> simp [h]
@[simp] theorem addCause_latch_kept (s : State) (c : Cause) (h : c.settles = true) :
    ({ s with service := { s.service with latch := s.service.latch.add c } } : State).kept = s.kept := by
  cases c <;> first | rfl | cases h
@[simp] theorem blocks_kept (s : State) (x : BlockManager) (h : x.records = s.blocks.records) :
    ({ s with blocks := x } : State).kept = s.kept := by simp [State.kept, h, State.counter]
@[simp] theorem setEntry_kept (s : State) (i : Fin 8) (e : Entry) : (s.setEntry i e).kept = s.kept := rfl
@[simp] theorem setQueue_kept (s : State) (q : List (Fin 8)) : (s.setQueue q).kept = s.kept := rfl
@[simp] theorem setActivity_kept (s : State) (x : Activity) : (s.setActivity x).kept = s.kept := rfl
@[simp] theorem setReserveHold_kept (s : State) (x : Bool) : (s.setReserveHold x).kept = s.kept := rfl
@[simp] theorem setWait_kept (s : State) (w : Wait) : (setWait w s).kept = s.kept := rfl
@[simp] theorem setCycle_kept (s : State) (c : Cycle) : (setCycle c s).kept = s.kept := rfl
@[simp] theorem fillBuffer_kept (s : State) (l : List Byte) : (fillBuffer l s).kept = s.kept := rfl
@[simp] theorem noteGrant_kept (s : State) (g : LastGrant) : (noteGrant g s).kept = s.kept := rfl
@[simp] theorem advanceScan_kept (s : State) : (advanceScan s).kept = s.kept := rfl
@[simp] theorem setBank_kept (s : State) (bk : BankId) (k : BankCtl) : (s.setBank bk k).kept = s.kept := by
  cases bk <;> rfl
@[simp] theorem setFlag_kept (s : State) (f : Flag) : (s.setFlag f).kept = s.kept := rfl

/-! ## Bank controllers -/

@[simp] theorem handOver_kept (s : State) (bk : BankId) (c : ReqClass) (op : ReqOp) :
    (handOver bk c op s).kept = s.kept := by
  first
  | rfl
  | simp only [handOver]; (repeat' split) <;> first | rfl | simp | simp_all

@[simp] theorem handErase_kept (s : State) (r : EraseRequest) : (handErase r s).kept = s.kept := by
  first
  | rfl
  | simp only [handErase]; (repeat' split) <;> first | rfl | simp | simp_all

@[simp] theorem beginAction_kept (s : State) (bk : BankId) (c : ReqClass) (a : Action) :
    (beginAction bk c a s).kept = s.kept := by
  first
  | rfl
  | simp only [beginAction]; (repeat' split) <;> first | rfl | simp | simp_all

@[simp] theorem beginHostRead_kept (s : State) (bk : BankId) (h : HostRead) : (beginHostRead bk h s).kept = s.kept := by
  first
  | rfl
  | simp only [beginHostRead]; (repeat' split) <;> first | rfl | simp | simp_all

@[simp] theorem beginClass_kept (s : State) (bk : BankId) (c : ReqClass) : (beginClass bk c s).kept = s.kept := by
  first
  | rfl
  | simp only [beginClass]; (repeat' split) <;> first | rfl | simp | simp_all

@[simp] theorem beginErase_kept (s : State) (bk : BankId) (r : EraseRequest) : (beginErase bk r s).kept = s.kept := by
  first
  | rfl
  | simp only [beginErase]; (repeat' split) <;> first | rfl | simp | simp_all

@[simp] theorem requestSuspend_kept (s : State) (bk : BankId) (c : SuspendCause) (h : Bool) :
    (requestSuspend bk c h s).kept = s.kept := by
  first
  | rfl
  | simp only [requestSuspend]; (repeat' split) <;> first | rfl | simp | simp_all

@[simp] theorem resumeErase_kept (s : State) (bk : BankId) : (resumeErase bk s).kept = s.kept := by
  first
  | rfl
  | simp only [resumeErase]; (repeat' split) <;> first | rfl | simp | simp_all

@[simp] theorem beginBankReset_kept (s : State) (bk : BankId) : (beginBankReset bk s).kept = s.kept := by
  first
  | rfl
  | simp only [beginBankReset]; (repeat' split) <;> first | rfl | simp | simp_all

@[simp] theorem chooseIdle_kept (s : State) (bk : BankId) : (chooseIdle bk s).kept = s.kept := by
  first
  | rfl
  | simp only [chooseIdle]; (repeat' split) <;> first | rfl | simp | simp_all

@[simp] theorem chooseSuspended_kept (s : State) (bk : BankId) (h : Bool) : (chooseSuspended bk h s).kept = s.kept := by
  first
  | rfl
  | simp only [chooseSuspended]; (repeat' split) <;> first | rfl | simp | simp_all

@[simp] theorem decideSuspend_kept (s : State) (bk : BankId) (c : EraseContext) :
    (decideSuspend bk c s).kept = s.kept := by
  first
  | rfl
  | simp only [decideSuspend]; (repeat' split) <;> first | rfl | simp | simp_all

@[simp] theorem kickBank_kept (s : State) (bk : BankId) : (kickBank bk s).kept = s.kept := by
  first
  | rfl
  | simp only [kickBank]; (repeat' split) <;> first | rfl | simp | simp_all

@[simp] theorem kickBanks_kept (s : State) : (kickBanks s).kept = s.kept := by
  first
  | rfl
  | simp only [kickBanks]; (repeat' split) <;> first | rfl | simp | simp_all

@[simp] theorem endAction_kept (s : State) (bk : BankId) : (endAction bk s).kept = s.kept := by
  first
  | rfl
  | simp only [endAction]; (repeat' split) <;> first | rfl | simp | simp_all

@[simp] theorem handHostRead_kept (s : State) (x : SlotRef) (o : Nat) : (handHostRead x o s).kept = s.kept := by
  first
  | rfl
  | simp only [handHostRead]; (repeat' split) <;> first | rfl | simp | simp_all

@[simp] theorem withdrawHostRead_kept (s : State) (bk : BankId) : (withdrawHostRead bk s).kept = s.kept := by
  first
  | rfl
  | simp only [withdrawHostRead]; (repeat' split) <;> first | rfl | simp | simp_all


/-! ## Staging buffer -/

@[simp] theorem completeCycle_kept (s : State) (f : Bool) (d : Option HalfWord) :
    (completeCycle f d s).kept = s.kept := by
  first
  | rfl
  | simp only [completeCycle]; (repeat' split) <;> first | rfl | simp | simp_all

@[simp] theorem refuseWrite_kept (s : State) : (refuseWrite s).kept = s.kept := by
  first
  | rfl
  | simp only [refuseWrite]; (repeat' split) <;> first | rfl | simp | simp_all

@[simp] theorem refuseHeld_kept (s : State) : (refuseHeld s).kept = s.kept := by
  first
  | rfl
  | simp only [refuseHeld]; (repeat' split) <;> first | rfl | simp | simp_all

@[simp] theorem closeEntry_kept (s : State) (i : Fin 8) : (closeEntry i s).kept = s.kept := by
  first
  | rfl
  | simp only [closeEntry]; (repeat' split) <;> first | rfl | simp | simp_all

theorem foldl_kept {α : Type} (f : State → α → State) (h : ∀ s a, (f s a).kept = s.kept) (l : List α) (s : State) :
    (l.foldl f s).kept = s.kept := by
  induction l generalizing s with
  | nil => rfl
  | cons a t ih => rw [List.foldl_cons, ih, h]

@[simp] theorem closeAll_kept (s : State) : (closeAll s).kept = s.kept :=
  foldl_kept _ (fun s i => closeEntry_kept s i) _ _

@[simp] theorem openEntry_kept (s : State) (i : Fin 8) (p : Nat) : (openEntry i p s).kept = s.kept := by
  first
  | rfl
  | simp only [openEntry]; (repeat' split) <;> first | rfl | simp | simp_all

@[simp] theorem mergeWrite_kept (s : State) (i : Fin 8) (o : Nat) (lo up : Bool) (d : HalfWord) :
    (mergeWrite i o lo up d s).kept = s.kept := by
  simp only [mergeWrite]; split <;> simp [bump_kept _ .hostWrites rfl]

theorem absorbWrite_kept {s t : State} {c : Cycle} (h : absorbWrite c s = some t) : t.kept = s.kept := by
  simp only [absorbWrite] at h
  split at h
  · obtain rfl := Option.some.inj h; simp
  · split at h
    · obtain rfl := Option.some.inj h; simp
    · cases h

@[simp] theorem evictOldest_kept (s : State) : (evictOldest s).kept = s.kept := by
  first
  | rfl
  | simp only [evictOldest]; (repeat' split) <;> first | rfl | simp | simp_all

@[simp] theorem handWrite_kept (s : State) (c : Cycle) : (handWrite c s).kept = s.kept := by
  unfold handWrite
  split
  · next h => exact absorbWrite_kept h
  · simp

@[simp] theorem retryHeld_kept (s : State) : (retryHeld s).kept = s.kept := by
  unfold retryHeld
  split
  · next c hc =>
    cases h : absorbWrite c s with
    | none => rfl
    | some t => exact absorbWrite_kept h
  · rfl

@[simp] theorem releaseEntry_kept (s : State) (i : Fin 8) : (releaseEntry i s).kept = s.kept := by
  first
  | rfl
  | simp only [releaseEntry]; (repeat' split) <;> first | rfl | simp | simp_all

@[simp] theorem startEntry_kept (s : State) (i : Fin 8) : (startEntry i s).kept = s.kept := by
  first
  | rfl
  | simp only [startEntry]; (repeat' split) <;> first | rfl | simp | simp_all

@[simp] theorem deferEntry_kept (s : State) (i : Fin 8) : (deferEntry i s).kept = s.kept := by
  first
  | rfl
  | simp only [deferEntry]; (repeat' split) <;> first | rfl | simp | simp_all

@[simp] theorem flushStaging_kept (s : State) : (flushStaging s).kept = s.kept := by
  simp only [flushStaging]; split <;> simp

@[simp] theorem addCause_kept (s : State) (c : Cause) (h : c.settles = true) : (addCause c s).kept = s.kept := by
  have hl := addCause_latch_kept s c h
  simp only [addCause]
  (repeat' split) <;> simp [hl]


/-! ## Block manager -/

@[simp] theorem serveBank_kept (s : State) (bk : BankId) : (serveBank bk s).kept = s.kept := by
  simp only [serveBank]
  split
  · rfl
  · split
    · rw [handErase_kept]
      exact (blocks_kept _ _ rfl).trans (modifyRecord_kept _ _ _ fun _ => rfl)
    · rfl

@[simp] theorem serveErases_kept (s : State) : (serveErases s).kept = s.kept := by
  first
  | rfl
  | simp only [serveErases]; (repeat' split) <;> first | rfl | simp | simp_all

@[simp] theorem joinErase_kept (s : State) (b : BlockRef) : (joinErase b s).kept = s.kept := by
  simp only [joinErase, serveErases_kept]
  exact (blocks_kept _ _ rfl).trans (modifyRecord_kept _ _ _ fun _ => rfl)

@[simp] theorem chooseVictim_kept (s : State) (k : ReclaimKind) (b : BlockRef) : (chooseVictim k b s).kept = s.kept :=
  (blocks_kept _ _ rfl).trans (modifyRecord_kept _ _ _ fun _ => rfl)

@[simp] theorem evaluateTriggers_kept (s : State) : (evaluateTriggers s).kept = s.kept := by
  first
  | rfl
  | simp only [evaluateTriggers]; (repeat' split) <;> first | rfl | simp | simp_all

@[simp] theorem finishVictim_kept (s : State) : (finishVictim s).kept = s.kept := by
  simp only [finishVictim]
  split
  · rw [evaluateTriggers_kept, joinErase_kept]; exact blocks_kept _ _ rfl
  · rfl

@[simp] theorem takeSlot_kept (s : State) (b : BlockRef) (n : Nat) : (takeSlot b n s).kept = s.kept := by
  simp only [takeSlot]
  split
  · rw [evaluateTriggers_kept]; exact (blocks_kept _ _ rfl).trans (modifyRecord_kept _ _ _ fun _ => rfl)
  · exact (blocks_kept _ _ rfl).trans (modifyRecord_kept _ _ _ fun _ => rfl)

@[simp] theorem takeBlock_kept (s : State) (b : BlockRef) (r : BlockRecord) : (takeBlock b r s).kept = s.kept := by
  simp only [takeBlock, handOver_kept, evaluateTriggers_kept, setReserveHold_kept]
  exact (blocks_kept _ _ rfl).trans (modifyRecord_kept _ _ _ fun _ => rfl)

@[simp] theorem slotRequest_kept (s : State) (q : Requester) : (slotRequest q s).2.kept = s.kept := by
  simp only [slotRequest]; (repeat' split) <;> simp


/-! ## Page mover -/

@[simp] theorem moverAsks_kept (s : State) (r : OpRecord) (p : Phase) (bk : BankId) (op : ReqOp) :
    (moverAsks r p bk op s).kept = s.kept := by
  first
  | rfl
  | simp only [moverAsks]; (repeat' split) <;> first | rfl | simp | simp_all

@[simp] theorem endCommit_kept (s : State) (i : Fin 8) (c : Counter) (h : c.settles = true) :
    (endCommit i c s).kept = s.kept := by simp [endCommit, h]

@[simp] theorem deferCommit_kept (s : State) (i : Fin 8) : (deferCommit i s).kept = s.kept := by
  first
  | rfl
  | simp only [deferCommit]; (repeat' split) <;> first | rfl | simp | simp_all

@[simp] theorem stickCommit_kept (s : State) (i : Fin 8) : (stickCommit i s).kept = s.kept := by
  simp [stickCommit, addCause_kept _ .commitStuck rfl]

@[simp] theorem haltReclaim_kept (s : State) : (haltReclaim s).kept = s.kept := by
  simp [haltReclaim, addCause_kept _ .reclaimHalted rfl]

@[simp] theorem noSlot_kept (s : State) (r : OpRecord) : (noSlot r s).kept = s.kept := by
  first
  | rfl
  | simp only [noSlot]; (repeat' split) <;> first | rfl | simp | simp_all

@[simp] theorem beginWrite_kept (s : State) (r : OpRecord) (n : SlotRef) : (beginWrite r n s).kept = s.kept := by
  first
  | rfl
  | simp only [beginWrite]; (repeat' split) <;> first | rfl | simp | simp_all

@[simp] theorem seekSlot_kept (s : State) (r : OpRecord) : (seekSlot r s).kept = s.kept := by
  have h := slotRequest_kept s r.requester
  simp only [seekSlot]
  split <;> (next he => rw [he] at h; simpa using h)

@[simp] theorem writeData_kept (s : State) (r : OpRecord) (n : SlotRef) (h : Nat) :
    (writeData r n h s).kept = s.kept := by
  first
  | rfl
  | simp only [writeData]; (repeat' split) <;> first | rfl | simp | simp_all

@[simp] theorem failAttempt_kept (s : State) (r : OpRecord) (n : SlotRef) : (failAttempt r n s).kept = s.kept := by
  first
  | rfl
  | simp only [failAttempt]; (repeat' split) <;> first | rfl | simp | simp_all

@[simp] theorem writeInPlace_kept (s : State) (r : OpRecord) (i : Fin 8) (x : SlotRef) (h : Nat) :
    (writeInPlace r i x h s).kept = s.kept := by
  simp only [writeInPlace]; split <;> simp [endCommit_kept _ _ .inPlaceCommits rfl]

@[simp] theorem decideCommit_kept (s : State) (r : OpRecord) (i : Fin 8) : (decideCommit r i s).kept = s.kept := by
  simp only [decideCommit]; (repeat' split) <;> simp [endCommit_kept _ _ .silentCommits rfl]

@[simp] theorem startCommit_kept (s : State) (i : Fin 8) : (startCommit i s).kept = s.kept := by
  simp only [startCommit]
  split
  · simp only [moverAsks_kept, setActivity_kept, startEntry_kept]
  · simp only [decideCommit_kept, fillBuffer_kept, setActivity_kept, startEntry_kept]

@[simp] theorem scanNext_kept (s : State) : (scanNext s).kept = s.kept := by
  unfold scanNext
  split
  · split
    · rw [handOver_kept, setActivity_kept]
    · rw [finishVictim_kept, setActivity_kept]
  · rfl

@[simp] theorem grantOnce_kept (s : State) : (grantOnce s).kept = s.kept := by
  first
  | rfl
  | simp only [grantOnce]; (repeat' split) <;> first | rfl | simp | simp_all

@[simp] theorem arbitrate_kept (n : Nat) (s : State) : (arbitrate n s).kept = s.kept := by
  induction n generalizing s with
  | zero => rfl
  | succ n ih => simp only [arbitrate]; split <;> simp [ih]

@[simp] theorem settle_kept (s : State) : (settle s).kept = s.kept := by
  first
  | rfl
  | simp only [settle]; (repeat' split) <;> first | rfl | simp | simp_all


/-! ## Host port -/

@[simp] theorem askBank_kept (s : State) (c : Cycle) (x : SlotRef) : (askBank c x s).kept = s.kept := by
  first
  | rfl
  | simp only [askBank]; (repeat' split) <;> first | rfl | simp | simp_all

@[simp] theorem faultRange_kept (s : State) (c : Cycle) : (faultRange c s).kept = s.kept := by
  first
  | rfl
  | simp only [faultRange]; (repeat' split) <;> first | rfl | simp | simp_all


/-! ## Volume engine and drain control -/

@[simp] theorem setPowerHold_kept (s : State) (h : Bool) (bk : BankId) : (setPowerHold h bk s).kept = s.kept := by
  first
  | rfl
  | simp only [setPowerHold]; (repeat' split) <;> first | rfl | simp | simp_all

@[simp] theorem holdBank_kept (s : State) (bk : BankId) : (holdBank bk s).kept = s.kept := by
  first
  | rfl
  | simp only [holdBank]; (repeat' split) <;> first | rfl | simp | simp_all

@[simp] theorem holdBanks_kept (s : State) : (holdBanks s).kept = s.kept := by
  first
  | rfl
  | simp only [holdBanks]; (repeat' split) <;> first | rfl | simp | simp_all

@[simp] theorem releaseBanks_kept (s : State) : (releaseBanks s).kept = s.kept := by
  first
  | rfl
  | simp only [releaseBanks]; (repeat' split) <;> first | rfl | simp | simp_all


/-! ## Flash events -/

@[simp] theorem emptySlot_kept (s : State) (bk : BankId) (c : ReqClass) : (emptySlot bk c s).kept = s.kept := by
  first
  | rfl
  | simp only [emptySlot]; (repeat' split) <;> first | rfl | simp | simp_all

@[simp] theorem replaceOp_kept (s : State) (bk : BankId) (c : ReqClass) (r : Request) (op : ReqOp) :
    (replaceOp bk c r op s).kept = s.kept := by
  first
  | rfl
  | simp only [replaceOp]; (repeat' split) <;> first | rfl | simp | simp_all

@[simp] theorem setAction_kept (s : State) (bk : BankId) (a : Active) : (setAction bk a s).kept = s.kept := by
  first
  | rfl
  | simp only [setAction]; (repeat' split) <;> first | rfl | simp | simp_all

@[simp] theorem idleBank_kept (s : State) (bk : BankId) : (idleBank bk s).kept = s.kept := by
  first
  | rfl
  | simp only [idleBank]; (repeat' split) <;> first | rfl | simp | simp_all

@[simp] theorem stopQuantum_kept (s : State) (bk : BankId) : (stopQuantum bk s).kept = s.kept := by
  first
  | rfl
  | simp only [stopQuantum]; (repeat' split) <;> first | rfl | simp | simp_all

end Sys2Proof.Machine
end

