-- ==== Sys2Proof/Laws/Flags.lean ====
section
/-! SUPPORT. No operation of the staging buffer, the block manager, the mover, the banks or the host port clears a flag
(R176: a flag is cleared only by CLEAR FLAGS or by a reset). One lemma per operation. -/

-- In order: as one text the package would otherwise start more threads than memory has stacks for.
set_option Elab.async false
set_option linter.all false

namespace Sys2Proof.Machine

/-- Setting a flag sets that flag and changes no other (R176). -/
@[simp] theorem hasFlag_setFlag (s : State) (f g : Flag) : (s.setFlag g).hasFlag f = (decide (f = g) || s.hasFlag f) := by
  simp only [State.hasFlag, State.setFlag, BitVec.getLsbD_or]
  have : g.mask.getLsbD f.bit = decide (f = g) := by cases f <;> cases g <;> decide
  rw [this, Bool.or_comm]

/-! ## Named updates -/

@[simp] theorem staging_hasFlag (s : State) (f : Flag) (x : Staging) :
    ({ s with staging := x } : State).hasFlag f = s.hasFlag f := rfl
@[simp] theorem service_hasFlag (s : State) (f : Flag) (x : Service) :
    ({ s with service := x } : State).hasFlag f = s.hasFlag f := rfl
@[simp] theorem blocks_hasFlag (s : State) (f : Flag) (x : BlockManager) :
    ({ s with blocks := x } : State).hasFlag f = s.hasFlag f := rfl
@[simp] theorem mover_hasFlag (s : State) (f : Flag) (x : Mover) :
    ({ s with mover := x } : State).hasFlag f = s.hasFlag f := rfl
@[simp] theorem pageMap_hasFlag (s : State) (f : Flag) (x : List (Nat × MapEntry)) :
    ({ s with pageMap := x } : State).hasFlag f = s.hasFlag f := rfl
@[simp] theorem port_hasFlag (s : State) (f : Flag) (x : Port) :
    ({ s with port := x } : State).hasFlag f = s.hasFlag f := rfl
@[simp] theorem drain_hasFlag (s : State) (f : Flag) (x : Drain) :
    ({ s with drain := x } : State).hasFlag f = s.hasFlag f := rfl
@[simp] theorem bump_hasFlag (s : State) (f : Flag) (c : Counter) : (s.bump c).hasFlag f = s.hasFlag f := rfl
@[simp] theorem modifyRecord_hasFlag (s : State) (f : Flag) (b : BlockRef) (g : BlockRecord → BlockRecord) :
    (s.modifyRecord b g).hasFlag f = s.hasFlag f := rfl
@[simp] theorem setBank_hasFlag (s : State) (f : Flag) (bk : BankId) (k : BankCtl) :
    (s.setBank bk k).hasFlag f = s.hasFlag f := by cases bk <;> rfl
@[simp] theorem setEntry_hasFlag (s : State) (f : Flag) (i : Fin 8) (e : Entry) : (s.setEntry i e).hasFlag f = s.hasFlag f := rfl
@[simp] theorem setQueue_hasFlag (s : State) (f : Flag) (q : List (Fin 8)) : (s.setQueue q).hasFlag f = s.hasFlag f := rfl
@[simp] theorem setService_hasFlag (s : State) (f : Flag) (x : ServiceState) : (s.setService x).hasFlag f = s.hasFlag f := rfl
@[simp] theorem setActivity_hasFlag (s : State) (f : Flag) (x : Activity) : (s.setActivity x).hasFlag f = s.hasFlag f := rfl
@[simp] theorem setReserveHold_hasFlag (s : State) (f : Flag) (x : Bool) : (s.setReserveHold x).hasFlag f = s.hasFlag f := rfl
@[simp] theorem setEngine_hasFlag (s : State) (f : Flag) (x : Engine) : (s.setEngine x).hasFlag f = s.hasFlag f := rfl
@[simp] theorem setWait_hasFlag (s : State) (f : Flag) (w : Wait) : (setWait w s).hasFlag f = s.hasFlag f := rfl
@[simp] theorem setCycle_hasFlag (s : State) (f : Flag) (c : Cycle) : (setCycle c s).hasFlag f = s.hasFlag f := rfl
@[simp] theorem setReturn_hasFlag (s : State) (f : Flag) (r : Option ReturnState) : (setReturn r s).hasFlag f = s.hasFlag f := rfl
@[simp] theorem dropLine_hasFlag (s : State) (f : Flag) : (dropLine s).hasFlag f = s.hasFlag f := rfl
@[simp] theorem setRestart_hasFlag (s : State) (f : Flag) : (setRestart s).hasFlag f = s.hasFlag f := rfl
@[simp] theorem setSerial_hasFlag (s : State) (f : Flag) (n : BitVec 16) : (setSerial n s).hasFlag f = s.hasFlag f := rfl
@[simp] theorem setVolume_hasFlag (s : State) (f : Flag) (pages banks : Nat) : (setVolume pages banks s).hasFlag f = s.hasFlag f := rfl
@[simp] theorem fillBuffer_hasFlag (s : State) (f : Flag) (l : List Byte) : (fillBuffer l s).hasFlag f = s.hasFlag f := rfl
@[simp] theorem noteGrant_hasFlag (s : State) (f : Flag) (g : LastGrant) : (noteGrant g s).hasFlag f = s.hasFlag f := rfl
@[simp] theorem advanceScan_hasFlag (s : State) (f : Flag) : (advanceScan s).hasFlag f = s.hasFlag f := rfl

/-! ## Bank controllers -/

@[simp] theorem handOver_hasFlag (s : State) (f : Flag) (bk : BankId) (c : ReqClass) (op : ReqOp) :
    (handOver bk c op s).hasFlag f = s.hasFlag f := by
  simp [handOver]

@[simp] theorem handErase_hasFlag (s : State) (f : Flag) (r : EraseRequest) :
    (handErase r s).hasFlag f = s.hasFlag f := by
  simp [handErase]

@[simp] theorem beginAction_hasFlag (s : State) (f : Flag) (bk : BankId) (c : ReqClass) (a : Action) :
    (beginAction bk c a s).hasFlag f = s.hasFlag f := by
  simp [beginAction]

@[simp] theorem beginHostRead_hasFlag (s : State) (f : Flag) (h : s.hasFlag f = true) (bk : BankId) (h1 : HostRead) :
    (beginHostRead bk h1 s).hasFlag f = true := by
  simp only [beginHostRead]; (repeat' split) <;> first | (simp [h]; done) | simp_all

@[simp] theorem beginClass_hasFlag (s : State) (f : Flag) (h : s.hasFlag f = true) (bk : BankId) (c : ReqClass) :
    (beginClass bk c s).hasFlag f = true := by
  simp only [beginClass]; (repeat' split) <;> first | (simp [h]; done) | simp_all

@[simp] theorem beginErase_hasFlag (s : State) (f : Flag) (bk : BankId) (r : EraseRequest) :
    (beginErase bk r s).hasFlag f = s.hasFlag f := by
  simp [beginErase]

@[simp] theorem requestSuspend_hasFlag (s : State) (f : Flag) (bk : BankId) (c : SuspendCause) (h1 : Bool) :
    (requestSuspend bk c h1 s).hasFlag f = s.hasFlag f := by
  simp [requestSuspend]

@[simp] theorem resumeErase_hasFlag (s : State) (f : Flag) (bk : BankId) :
    (resumeErase bk s).hasFlag f = s.hasFlag f := by
  simp [resumeErase]

@[simp] theorem beginBankReset_hasFlag (s : State) (f : Flag) (bk : BankId) :
    (beginBankReset bk s).hasFlag f = s.hasFlag f := by
  simp [beginBankReset]

@[simp] theorem chooseIdle_hasFlag (s : State) (f : Flag) (h : s.hasFlag f = true) (bk : BankId) :
    (chooseIdle bk s).hasFlag f = true := by
  simp only [chooseIdle]; (repeat' split) <;> first | (simp [h]; done) | simp_all

@[simp] theorem chooseSuspended_hasFlag (s : State) (f : Flag) (h : s.hasFlag f = true) (bk : BankId) (h1 : Bool) :
    (chooseSuspended bk h1 s).hasFlag f = true := by
  simp only [chooseSuspended]; (repeat' split) <;> first | (simp [h]; done) | simp_all

@[simp] theorem decideSuspend_hasFlag (s : State) (f : Flag) (h : s.hasFlag f = true) (bk : BankId) (c : EraseContext) :
    (decideSuspend bk c s).hasFlag f = true := by
  simp only [decideSuspend]; (repeat' split) <;> first | (simp [h]; done) | simp_all

@[simp] theorem kickBank_hasFlag (s : State) (f : Flag) (h : s.hasFlag f = true) (bk : BankId) :
    (kickBank bk s).hasFlag f = true := by
  simp only [kickBank]; (repeat' split) <;> first | (simp [h]; done) | simp_all

@[simp] theorem kickBanks_hasFlag (s : State) (f : Flag) (h : s.hasFlag f = true) : (kickBanks s).hasFlag f = true := by
  simp only [kickBanks]; (repeat' split) <;> first | (simp [h]; done) | simp_all

@[simp] theorem endAction_hasFlag (s : State) (f : Flag) (bk : BankId) : (endAction bk s).hasFlag f = s.hasFlag f := by
  simp [endAction]

@[simp] theorem handHostRead_hasFlag (s : State) (f : Flag) (x : SlotRef) (o : Nat) :
    (handHostRead x o s).hasFlag f = s.hasFlag f := by
  simp [handHostRead]

@[simp] theorem withdrawHostRead_hasFlag (s : State) (f : Flag) (bk : BankId) :
    (withdrawHostRead bk s).hasFlag f = s.hasFlag f := by
  simp [withdrawHostRead]


/-! ## Staging buffer -/

@[simp] theorem completeCycle_hasFlag (s : State) (f : Flag) (h : s.hasFlag f = true) (g : Bool) (d : Option HalfWord) :
    (completeCycle g d s).hasFlag f = true := by
  simp only [completeCycle]; (repeat' split) <;> first | (simp [h]; done) | simp_all

@[simp] theorem refuseWrite_hasFlag (s : State) (f : Flag) (h : s.hasFlag f = true) :
    (refuseWrite s).hasFlag f = true := by
  simp only [refuseWrite]; (repeat' split) <;> first | (simp [h]; done) | simp_all

@[simp] theorem refuseHeld_hasFlag (s : State) (f : Flag) (h : s.hasFlag f = true) :
    (refuseHeld s).hasFlag f = true := by
  simp only [refuseHeld]; (repeat' split) <;> first | (simp [h]; done) | simp_all

@[simp] theorem closeEntry_hasFlag (s : State) (f : Flag) (h : s.hasFlag f = true) (i : Fin 8) :
    (closeEntry i s).hasFlag f = true := by
  simp only [closeEntry]; (repeat' split) <;> first | (simp [h]; done) | simp_all

@[simp] theorem closeAll_hasFlag (s : State) (f : Flag) (h : s.hasFlag f = true) : (closeAll s).hasFlag f = true := by
  unfold closeAll
  generalize s.gatheringInOrder = l
  induction l generalizing s with
  | nil => exact h
  | cons a t ih => exact ih _ (closeEntry_hasFlag s f h a)

@[simp] theorem openEntry_hasFlag (s : State) (f : Flag) (h : s.hasFlag f = true) (i : Fin 8) (p : Nat) :
    (openEntry i p s).hasFlag f = true := by
  simp only [openEntry]; (repeat' split) <;> first | (simp [h]; done) | simp_all

@[simp] theorem mergeWrite_hasFlag (s : State) (f : Flag) (h : s.hasFlag f = true) (i : Fin 8) (o : Nat) (lo up : Bool) (d : HalfWord) :
    (mergeWrite i o lo up d s).hasFlag f = true := by
  simp only [mergeWrite]; (repeat' split) <;> first | (simp [h]; done) | simp_all

theorem absorbWrite_hasFlag {s t : State} {c : Cycle} (f : Flag) (hf : s.hasFlag f = true)
    (h : absorbWrite c s = some t) : t.hasFlag f = true := by
  simp only [absorbWrite] at h
  split at h
  · obtain rfl := Option.some.inj h; simp [hf]
  · split at h
    · obtain rfl := Option.some.inj h; simp [hf]
    · cases h

@[simp] theorem evictOldest_hasFlag (s : State) (f : Flag) (h : s.hasFlag f = true) :
    (evictOldest s).hasFlag f = true := by
  simp only [evictOldest]; (repeat' split) <;> first | (simp [h]; done) | simp_all

@[simp] theorem handWrite_hasFlag (s : State) (f : Flag) (h : s.hasFlag f = true) (c : Cycle) :
    (handWrite c s).hasFlag f = true := by
  unfold handWrite
  split
  · next he => exact absorbWrite_hasFlag f h he
  · simp [h]

@[simp] theorem retryHeld_hasFlag (s : State) (f : Flag) (h : s.hasFlag f = true) : (retryHeld s).hasFlag f = true := by
  unfold retryHeld
  split
  · next c hc =>
    cases he : absorbWrite c s with
    | none => exact h
    | some t => exact absorbWrite_hasFlag f h he
  · exact h

@[simp] theorem releaseEntry_hasFlag (s : State) (f : Flag) (h : s.hasFlag f = true) (i : Fin 8) :
    (releaseEntry i s).hasFlag f = true := by
  simp only [releaseEntry]; (repeat' split) <;> first | (simp [h]; done) | simp_all

@[simp] theorem startEntry_hasFlag (s : State) (f : Flag) (h : s.hasFlag f = true) (i : Fin 8) :
    (startEntry i s).hasFlag f = true := by
  simp only [startEntry]; (repeat' split) <;> first | (simp [h]; done) | simp_all

@[simp] theorem deferEntry_hasFlag (s : State) (f : Flag) (h : s.hasFlag f = true) (i : Fin 8) :
    (deferEntry i s).hasFlag f = true := by
  simp only [deferEntry]; (repeat' split) <;> first | (simp [h]; done) | simp_all

@[simp] theorem resumeEntry_hasFlag (s : State) (f : Flag) (h : s.hasFlag f = true) :
    (resumeEntry s).hasFlag f = true := by
  simp only [resumeEntry]; (repeat' split) <;> first | (simp [h]; done) | simp_all

@[simp] theorem flushStaging_hasFlag (s : State) (f : Flag) (h : s.hasFlag f = true) :
    (flushStaging s).hasFlag f = true := by
  simp only [flushStaging]; (repeat' split) <;> first | (simp [h]; done) | simp_all

@[simp] theorem addCause_hasFlag (s : State) (f : Flag) (h : s.hasFlag f = true) (c : Cause) :
    (addCause c s).hasFlag f = true := by
  simp only [addCause]; (repeat' split) <;> first | (simp [h]; done) | simp_all


/-! ## Block manager -/

@[simp] theorem serveBank_hasFlag (s : State) (f : Flag) (h : s.hasFlag f = true) (bk : BankId) :
    (serveBank bk s).hasFlag f = true := by
  simp only [serveBank]; (repeat' split) <;> first | (simp [h]; done) | simp_all

@[simp] theorem serveErases_hasFlag (s : State) (f : Flag) (h : s.hasFlag f = true) :
    (serveErases s).hasFlag f = true := by
  simp only [serveErases]; (repeat' split) <;> first | (simp [h]; done) | simp_all

@[simp] theorem joinErase_hasFlag (s : State) (f : Flag) (h : s.hasFlag f = true) (b : BlockRef) :
    (joinErase b s).hasFlag f = true := by
  simp only [joinErase]; (repeat' split) <;> first | (simp [h]; done) | simp_all

@[simp] theorem chooseVictim_hasFlag (s : State) (f : Flag) (h : s.hasFlag f = true) (k : ReclaimKind) (b : BlockRef) :
    (chooseVictim k b s).hasFlag f = true := by
  simp only [chooseVictim]; (repeat' split) <;> first | (simp [h]; done) | simp_all

@[simp] theorem evaluateTriggers_hasFlag (s : State) (f : Flag) (h : s.hasFlag f = true) :
    (evaluateTriggers s).hasFlag f = true := by
  simp only [evaluateTriggers]; (repeat' split) <;> first | (simp [h]; done) | simp_all

@[simp] theorem finishVictim_hasFlag (s : State) (f : Flag) (h : s.hasFlag f = true) :
    (finishVictim s).hasFlag f = true := by
  simp only [finishVictim]; (repeat' split) <;> first | (simp [h]; done) | simp_all

@[simp] theorem livePlus_hasFlag (s : State) (f : Flag) (h : s.hasFlag f = true) (b : BlockRef) :
    (livePlus b s).hasFlag f = true := by
  simp only [livePlus]; (repeat' split) <;> first | (simp [h]; done) | simp_all

@[simp] theorem liveMinus_hasFlag (s : State) (f : Flag) (h : s.hasFlag f = true) (b : BlockRef) (c : Bool) :
    (liveMinus b c s).hasFlag f = true := by
  simp only [liveMinus]; (repeat' split) <;> first | (simp [h]; done) | simp_all

@[simp] theorem condemn_hasFlag (s : State) (f : Flag) (h : s.hasFlag f = true) (b : BlockRef) :
    (condemn b s).hasFlag f = true := by
  simp only [condemn]; (repeat' split) <;> first | (simp [h]; done) | simp_all

@[simp] theorem movedNotice_hasFlag (s : State) (f : Flag) (h : s.hasFlag f = true) :
    (movedNotice s).hasFlag f = true := by
  simp only [movedNotice]; (repeat' split) <;> first | (simp [h]; done) | simp_all

@[simp] theorem takeSlot_hasFlag (s : State) (f : Flag) (h : s.hasFlag f = true) (b : BlockRef) (n : Nat) :
    (takeSlot b n s).hasFlag f = true := by
  simp only [takeSlot]; (repeat' split) <;> first | (simp [h]; done) | simp_all

@[simp] theorem takeBlock_hasFlag (s : State) (f : Flag) (h : s.hasFlag f = true) (b : BlockRef) (r : BlockRecord) :
    (takeBlock b r s).hasFlag f = true := by
  simp only [takeBlock]; (repeat' split) <;> first | (simp [h]; done) | simp_all

@[simp] theorem slotRequest_hasFlag (s : State) (f : Flag) (h : s.hasFlag f = true) (q : Requester) :
    (slotRequest q s).2.hasFlag f = true := by
  simp only [slotRequest]; (repeat' split) <;> simp [h]

@[simp] theorem capacityCheck_hasFlag (s : State) (f : Flag) (h : s.hasFlag f = true) :
    (capacityCheck s).hasFlag f = true := by
  simp only [capacityCheck]; (repeat' split) <;> first | (simp [h]; done) | simp_all

@[simp] theorem requestRetired_hasFlag (s : State) (f : Flag) (h : s.hasFlag f = true) (b : BlockRef) (n : Nat) :
    (requestRetired b n s).hasFlag f = true := by
  simp only [requestRetired]; (repeat' split) <;> first | (simp [h]; done) | simp_all

@[simp] theorem bumpIf_hasFlag (s : State) (f : Flag) (b : Bool) (c : Counter) :
    (s.bumpIf b c).hasFlag f = s.hasFlag f := by cases b <;> rfl

@[simp] theorem takeEraseResult_hasFlag (s : State) (f : Flag) (h : s.hasFlag f = true) (b : BlockRef) (p : Bool) :
    (takeEraseResult b p s).hasFlag f = true := by
  simp only [takeEraseResult]; (repeat' split) <;> first | (simp [h]; done) | simp_all

@[simp] theorem freshPassed_hasFlag (s : State) (f : Flag) (h : s.hasFlag f = true) (b : BlockRef) :
    (freshPassed b s).hasFlag f = true := by
  simp only [freshPassed]; (repeat' split) <;> first | (simp [h]; done) | simp_all

@[simp] theorem retireBlock_hasFlag (s : State) (f : Flag) (h : s.hasFlag f = true) (b : BlockRef) :
    (retireBlock b s).hasFlag f = true := by
  exact serveErases_hasFlag _ f (evaluateTriggers_hasFlag _ f (capacityCheck_hasFlag _ f (by simp [h])))

@[simp] theorem takeDescriptorResult_hasFlag (s : State) (f : Flag) (h : s.hasFlag f = true) (b : BlockRef) (g : DescProgram) (p : Bool) :
    (takeDescriptorResult b g p s).hasFlag f = true := by
  simp only [takeDescriptorResult]; (repeat' split) <;> first | (simp [h]; done) | simp_all

@[simp] theorem enterActive_hasFlag (s : State) (f : Flag) (h : s.hasFlag f = true) :
    (enterActive s).hasFlag f = true := by
  simp only [enterActive]; (repeat' split) <;> first | (simp [h]; done) | simp_all

@[simp] theorem takeTable_hasFlag (s : State) (f : Flag) (h : s.hasFlag f = true) (t : List (BlockRef × BlockRecord)) :
    (takeTable t s).hasFlag f = true := by
  simp only [takeTable]; (repeat' split) <;> first | (simp [h]; done) | simp_all


/-! ## Page mover -/

@[simp] theorem moverAsks_hasFlag (s : State) (f : Flag) (h : s.hasFlag f = true) (r : OpRecord) (p : Phase) (bk : BankId) (op : ReqOp) :
    (moverAsks r p bk op s).hasFlag f = true := by
  simp only [moverAsks]; (repeat' split) <;> first | (simp [h]; done) | simp_all

@[simp] theorem endCommit_hasFlag (s : State) (f : Flag) (h : s.hasFlag f = true) (i : Fin 8) (c : Counter) :
    (endCommit i c s).hasFlag f = true := by
  simp only [endCommit]; (repeat' split) <;> first | (simp [h]; done) | simp_all

@[simp] theorem deferCommit_hasFlag (s : State) (f : Flag) (h : s.hasFlag f = true) (i : Fin 8) :
    (deferCommit i s).hasFlag f = true := by
  simp only [deferCommit]; (repeat' split) <;> first | (simp [h]; done) | simp_all

@[simp] theorem stickCommit_hasFlag (s : State) (f : Flag) (h : s.hasFlag f = true) (i : Fin 8) :
    (stickCommit i s).hasFlag f = true := by
  simp only [stickCommit]; (repeat' split) <;> first | (simp [h]; done) | simp_all

@[simp] theorem haltReclaim_hasFlag (s : State) (f : Flag) (h : s.hasFlag f = true) :
    (haltReclaim s).hasFlag f = true := by
  simp only [haltReclaim]; (repeat' split) <;> first | (simp [h]; done) | simp_all

@[simp] theorem noSlot_hasFlag (s : State) (f : Flag) (h : s.hasFlag f = true) (r : OpRecord) :
    (noSlot r s).hasFlag f = true := by
  simp only [noSlot]; (repeat' split) <;> first | (simp [h]; done) | simp_all

@[simp] theorem beginWrite_hasFlag (s : State) (f : Flag) (h : s.hasFlag f = true) (r : OpRecord) (n : SlotRef) :
    (beginWrite r n s).hasFlag f = true := by
  simp only [beginWrite]; (repeat' split) <;> first | (simp [h]; done) | simp_all

@[simp] theorem seekSlot_hasFlag (s : State) (f : Flag) (h : s.hasFlag f = true) (r : OpRecord) :
    (seekSlot r s).hasFlag f = true := by
  have h2 := slotRequest_hasFlag s f h r.requester
  simp only [seekSlot]
  split <;> (next he => rw [he] at h2; simp [show _ = true from h2])

@[simp] theorem writeData_hasFlag (s : State) (f : Flag) (h : s.hasFlag f = true) (r : OpRecord) (n : SlotRef) (h1 : Nat) :
    (writeData r n h1 s).hasFlag f = true := by
  simp only [writeData]; (repeat' split) <;> first | (simp [h]; done) | simp_all

@[simp] theorem failAttempt_hasFlag (s : State) (f : Flag) (h : s.hasFlag f = true) (r : OpRecord) (n : SlotRef) :
    (failAttempt r n s).hasFlag f = true := by
  simp only [failAttempt]; (repeat' split) <;> first | (simp [h]; done) | simp_all

@[simp] theorem afterFailedAttempt_hasFlag (s : State) (f : Flag) (h : s.hasFlag f = true) (r : OpRecord) (n : SlotRef) :
    (afterFailedAttempt r n s).hasFlag f = true := by
  simp only [afterFailedAttempt]; (repeat' split) <;> first | (simp [h]; done) | simp_all

@[simp] theorem endWrite_hasFlag (s : State) (f : Flag) (h : s.hasFlag f = true) (r : OpRecord) :
    (endWrite r s).hasFlag f = true := by
  simp only [endWrite]; (repeat' split) <;> first | (simp [h]; done) | simp_all

@[simp] theorem mapUpdate_hasFlag (s : State) (f : Flag) (h : s.hasFlag f = true) (r : OpRecord) (n : SlotRef) :
    (mapUpdate r n s).hasFlag f = true := by
  simp only [mapUpdate]
  split
  · apply liveMinus_hasFlag; apply livePlus_hasFlag; apply moverAsks_hasFlag; exact h
  · apply endWrite_hasFlag; apply livePlus_hasFlag; exact h

@[simp] theorem writeInPlace_hasFlag (s : State) (f : Flag) (h : s.hasFlag f = true) (r : OpRecord) (i : Fin 8) (x : SlotRef) (h1 : Nat) :
    (writeInPlace r i x h1 s).hasFlag f = true := by
  simp only [writeInPlace]; (repeat' split) <;> first | (simp [h]; done) | simp_all

@[simp] theorem decideCommit_hasFlag (s : State) (f : Flag) (h : s.hasFlag f = true) (r : OpRecord) (i : Fin 8) :
    (decideCommit r i s).hasFlag f = true := by
  simp only [decideCommit]; (repeat' split) <;> first | (simp [h]; done) | simp_all

@[simp] theorem startCommit_hasFlag (s : State) (f : Flag) (h : s.hasFlag f = true) (i : Fin 8) :
    (startCommit i s).hasFlag f = true := by
  simp only [startCommit]
  split
  · apply moverAsks_hasFlag
    rw [setActivity_hasFlag]
    exact startEntry_hasFlag _ f h i
  · apply decideCommit_hasFlag
    rw [fillBuffer_hasFlag, setActivity_hasFlag]
    exact startEntry_hasFlag _ f h i

@[simp] theorem scanNext_hasFlag (s : State) (f : Flag) (h : s.hasFlag f = true) : (scanNext s).hasFlag f = true := by
  unfold scanNext
  split
  · split
    · rw [handOver_hasFlag]; exact h
    · exact finishVictim_hasFlag _ f h
  · exact h

@[simp] theorem scanEntry_hasFlag (s : State) (f : Flag) (h : s.hasFlag f = true) (l : List Byte) :
    (scanEntry l s).hasFlag f = true := by
  simp only [scanEntry]; (repeat' split) <;> first | (simp [h]; done) | simp_all

@[simp] theorem moverReadDone_hasFlag (s : State) (f : Flag) (h : s.hasFlag f = true) (l : List Byte) :
    (moverReadDone l s).hasFlag f = true := by
  simp only [moverReadDone]; (repeat' split) <;> first | (simp [h]; done) | simp_all

@[simp] theorem moverProgramDone_hasFlag (s : State) (f : Flag) (h : s.hasFlag f = true) (p : Bool) :
    (moverProgramDone p s).hasFlag f = true := by
  simp only [moverProgramDone]; (repeat' split) <;> first | (simp [h]; done) | simp_all

@[simp] theorem inUseDone_hasFlag (s : State) (f : Flag) (h : s.hasFlag f = true) (b : BlockRef) (p : Bool) :
    (inUseDone b p s).hasFlag f = true := by
  simp only [inUseDone]; (repeat' split) <;> first | (simp [h]; done) | simp_all

@[simp] theorem grantOnce_hasFlag (s : State) (f : Flag) (h : s.hasFlag f = true) : (grantOnce s).hasFlag f = true := by
  simp only [grantOnce]; (repeat' split) <;> first | (simp [h]; done) | simp_all

@[simp] theorem arbitrate_hasFlag (n : Nat) (s : State) (f : Flag) (h : s.hasFlag f = true) :
    (arbitrate n s).hasFlag f = true := by
  induction n generalizing s with
  | zero => exact h
  | succ n ih => simp only [arbitrate]; split; exacts [ih _ (by simp [h]), h]

@[simp] theorem settle_hasFlag (s : State) (f : Flag) (h : s.hasFlag f = true) : (settle s).hasFlag f = true := by
  simp only [settle]; (repeat' split) <;> first | (simp [h]; done) | simp_all


/-! ## Host port -/

@[simp] theorem completeRead_hasFlag (s : State) (f : Flag) (h : s.hasFlag f = true) (c : Cycle) (d : HalfWord) :
    (completeRead c d s).hasFlag f = true := by
  simp only [completeRead]; (repeat' split) <;> first | (simp [h]; done) | simp_all

@[simp] theorem askBank_hasFlag (s : State) (f : Flag) (h : s.hasFlag f = true) (c : Cycle) (x : SlotRef) :
    (askBank c x s).hasFlag f = true := by
  simp only [askBank]; (repeat' split) <;> first | (simp [h]; done) | simp_all

@[simp] theorem resolveRead_hasFlag (s : State) (f : Flag) (h : s.hasFlag f = true) (c : Cycle) :
    (resolveRead c s).hasFlag f = true := by
  simp only [resolveRead]; (repeat' split) <;> first | (simp [h]; done) | simp_all

@[simp] theorem hostReadDone_hasFlag (s : State) (f : Flag) (h : s.hasFlag f = true) (bk : BankId) (l : List Byte) :
    (hostReadDone bk l s).hasFlag f = true := by
  simp only [hostReadDone]; (repeat' split) <;> first | (simp [h]; done) | simp_all

@[simp] theorem faultRange_hasFlag (s : State) (f : Flag) (h : s.hasFlag f = true) (c : Cycle) :
    (faultRange c s).hasFlag f = true := by
  simp only [faultRange]; (repeat' split) <;> first | (simp [h]; done) | simp_all

@[simp] theorem stageWrite_hasFlag (s : State) (f : Flag) (h : s.hasFlag f = true) (c : Cycle) :
    (stageWrite c s).hasFlag f = true := by
  simp only [stageWrite]; (repeat' split) <;> first | (simp [h]; done) | simp_all

@[simp] theorem treatInRange_hasFlag (s : State) (f : Flag) (h : s.hasFlag f = true) (c : Cycle) :
    (treatInRange c s).hasFlag f = true := by
  simp only [treatInRange]; (repeat' split) <;> first | (simp [h]; done) | simp_all

@[simp] theorem treatNoVolume_hasFlag (s : State) (f : Flag) (h : s.hasFlag f = true) (g : Bool) (c : Cycle) :
    (treatNoVolume g c s).hasFlag f = true := by
  simp only [treatNoVolume]; (repeat' split) <;> first | (simp [h]; done) | simp_all

@[simp] theorem treatCycle_hasFlag (s : State) (f : Flag) (h : s.hasFlag f = true) (c : Cycle) :
    (treatCycle c s).hasFlag f = true := by
  simp only [treatCycle]; (repeat' split) <;> first | (simp [h]; done) | simp_all

@[simp] theorem arrive_hasFlag (s : State) (f : Flag) (h : s.hasFlag f = true) (c : Cycle) :
    (arrive c s).hasFlag f = true := by
  simp only [arrive]; (repeat' split) <;> first | (simp [h]; done) | simp_all

@[simp] theorem arriveFromPins_hasFlag (s : State) (f : Flag) (h : s.hasFlag f = true) :
    (arriveFromPins s).hasFlag f = true := by
  simp only [arriveFromPins]; (repeat' split) <;> first | (simp [h]; done) | simp_all

@[simp] theorem releaseMountHold_hasFlag (s : State) (f : Flag) (h : s.hasFlag f = true) :
    (releaseMountHold s).hasFlag f = true := by
  simp only [releaseMountHold]; (repeat' split) <;> first | (simp [h]; done) | simp_all

@[simp] theorem withdrawCycleRead_hasFlag (s : State) (f : Flag) (h : s.hasFlag f = true) (c : Cycle) :
    (withdrawCycleRead c s).hasFlag f = true := by
  simp only [withdrawCycleRead]; (repeat' split) <;> first | (simp [h]; done) | simp_all

@[simp] theorem expireHold_hasFlag (s : State) (f : Flag) (h : s.hasFlag f = true) :
    (expireHold s).hasFlag f = true := by
  simp only [expireHold]; (repeat' split) <;> first | (simp [h]; done) | simp_all


/-! ## Drain control -/

@[simp] theorem assertLine_hasFlag (s : State) (f : Flag) (h : s.hasFlag f = true) :
    (assertLine s).hasFlag f = true := by
  simp only [assertLine]; (repeat' split) <;> first | (simp [h]; done) | simp_all

end Sys2Proof.Machine
end

