-- ==== Sys2Proof/Laws/Memory.lean ====
section
/-! SUPPORT. Laws of the association lists and of the flash arrays: a read after a write, what a write leaves alone, and
that every operation keeps the canonical form. -/

-- In order: as one text the package would otherwise start more threads than memory has stacks for.
set_option Elab.async false
set_option linter.all false

namespace Sys2Proof.Machine

/-! ## Association lists -/

@[simp] theorem assocGet_assocSet_same {α : Type} (l : List (Nat × α)) (a : Nat) (x : α) :
    assocGet (assocSet l a x) a = some x := by
  induction l with
  | nil => simp [assocSet, assocGet]
  | cons p t ih =>
    obtain ⟨k, v⟩ := p
    simp only [assocSet]
    split
    · simp [assocGet]
    · split
      · simp [assocGet]
      · next h1 h2 => simp [assocGet, h2, ih]

theorem assocGet_assocSet_ne {α : Type} (l : List (Nat × α)) {a b : Nat} (x : α) (h : b ≠ a) :
    assocGet (assocSet l a x) b = assocGet l b := by
  induction l with
  | nil => simp [assocSet, assocGet, h]
  | cons p t ih =>
    obtain ⟨k, v⟩ := p
    simp only [assocSet]
    split
    · simp [assocGet, h]
    · split
      · next h1 h2 => subst h2; simp [assocGet, h]
      · simp [assocGet, ih]

@[simp] theorem assocGet_assocDrop_same {α : Type} (l : List (Nat × α)) (a : Nat) :
    assocGet (assocDrop l a) a = none := by
  induction l with
  | nil => rfl
  | cons p t ih =>
    obtain ⟨k, v⟩ := p
    by_cases h : k = a
    · simpa [assocDrop, h] using ih
    · have h' : ¬ a = k := fun hh => h hh.symm
      simp only [assocDrop] at ih
      simp [assocDrop, h, assocGet, h', ih]

theorem assocGet_assocDrop_ne {α : Type} (l : List (Nat × α)) {a b : Nat} (h : b ≠ a) :
    assocGet (assocDrop l a) b = assocGet l b := by
  induction l with
  | nil => rfl
  | cons p t ih =>
    obtain ⟨k, v⟩ := p
    simp only [assocDrop] at ih
    by_cases hk : k = a
    · subst hk; simp [assocDrop, assocGet, h, ih]
    · simp [assocDrop, hk, assocGet, ih]

theorem assocGet_filter {α : Type} (l : List (Nat × α)) (p : Nat → Bool) (a : Nat) :
    assocGet (l.filter fun c => p c.1) a = if p a then assocGet l a else none := by
  induction l with
  | nil => simp [assocGet]
  | cons c t ih =>
    obtain ⟨k, v⟩ := c
    by_cases hk : p k
    · by_cases ha : a = k
      · subst ha; simp [hk, assocGet]
      · simp [hk, assocGet, ha, ih]
    · by_cases ha : a = k
      · subst ha; simp [hk, ih]
      · simp [hk, assocGet, ha, ih]

/-- Rising keys, as a relation between every two entries. -/
theorem assocRising_iff {α : Type} (l : List (Nat × α)) :
    assocRising l = true ↔ l.Pairwise (fun p q => p.1 < q.1) := by
  induction l with
  | nil => simp [assocRising]
  | cons p t ih =>
    cases t with
    | nil => simp [assocRising]
    | cons q t =>
      obtain ⟨k, v⟩ := p
      obtain ⟨k2, v2⟩ := q
      simp only [assocRising, Bool.and_eq_true, decide_eq_true_eq, ih, List.pairwise_cons]
      constructor
      · rintro ⟨h1, h2, h3⟩
        refine ⟨?_, h2, h3⟩
        intro c hc
        rcases List.mem_cons.1 hc with rfl | hc
        · exact h1
        · exact Nat.lt_trans h1 (h2 c hc)
      · rintro ⟨h1, h2, h3⟩
        exact ⟨h1 (k2, v2) (by simp), h2, h3⟩

theorem assocRising_filter {α : Type} (l : List (Nat × α)) (p : Nat × α → Bool) (h : assocRising l = true) :
    assocRising (l.filter p) = true := by
  rw [assocRising_iff] at *
  exact h.filter p

theorem mem_assocSet {α : Type} {l : List (Nat × α)} {a : Nat} {x : α} {c : Nat × α} (h : c ∈ assocSet l a x) :
    c = (a, x) ∨ c ∈ l := by
  induction l with
  | nil => simpa [assocSet] using h
  | cons p t ih =>
    obtain ⟨k, v⟩ := p
    simp only [assocSet] at h
    split at h
    · simpa using h
    · split at h
      · rcases List.mem_cons.1 h with rfl | h
        · exact .inl rfl
        · exact .inr (List.mem_cons_of_mem _ h)
      · rcases List.mem_cons.1 h with rfl | h
        · exact .inr (by simp)
        · rcases ih h with h | h
          · exact .inl h
          · exact .inr (List.mem_cons_of_mem _ h)

theorem assocRising_assocSet {α : Type} (l : List (Nat × α)) (a : Nat) (x : α) (h : assocRising l = true) :
    assocRising (assocSet l a x) = true := by
  rw [assocRising_iff] at *
  induction l with
  | nil => simp [assocSet]
  | cons p t ih =>
    obtain ⟨k, v⟩ := p
    rw [List.pairwise_cons] at h
    simp only [assocSet]
    split
    · next hk =>
      rw [List.pairwise_cons]
      refine ⟨?_, List.pairwise_cons.2 h⟩
      intro c hc
      rcases List.mem_cons.1 hc with rfl | hc
      · exact hk
      · exact Nat.lt_trans hk (h.1 c hc)
    · split
      · next hk => subst hk; exact List.pairwise_cons.2 h
      · next h1 h2 =>
        rw [List.pairwise_cons]
        refine ⟨?_, ih h.2⟩
        intro c hc
        rcases mem_assocSet hc with rfl | hc
        · show k < a; omega
        · exact h.1 c hc

theorem assocRising_assocDrop {α : Type} (l : List (Nat × α)) (a : Nat) (h : assocRising l = true) :
    assocRising (assocDrop l a) = true := assocRising_filter l _ h

/-! ## Addresses -/

theorem SlotRef.addr_lt (s : SlotRef) (o : Nat) : s.addr o < Config.bankBytes := by
  have h1 : BlockRef.index s.block < 64 := Nat.mod_lt _ (by decide)
  have h2 := s.slot.isLt
  have h3 : o % 512 < 512 := Nat.mod_lt _ (by decide)
  simp only [SlotRef.addr, Config.bankBytes]
  omega

/-- The block an address of a slot lies in. -/
theorem SlotRef.addr_div (s : SlotRef) (o : Nat) : s.addr o / Config.blockBytes = BlockRef.index s.block := by
  have h2 := s.slot.isLt
  have h3 : o % 512 < 512 := Nat.mod_lt _ (by decide)
  simp only [SlotRef.addr, Config.blockBytes]
  omega

/-- The two bytes of a halfword lie at different addresses. -/
theorem SlotRef.addr_half_ne (s : SlotRef) (h : Fin 256) : s.addr (2 * h.val + 1) ≠ s.addr (2 * h.val) := by
  have := h.isLt
  simp only [SlotRef.addr]
  omega

/-! ## Reading what was written -/

@[simp] theorem Flash.unlisted_write (f : Flash) (a : Nat) (v : Byte) (b : Nat) :
    (f.write a v).unlisted b = f.unlisted b := rfl

@[simp] theorem Flash.byte_write_same (f : Flash) (a : Nat) (v : Byte) : (f.write a v).byte a = v := by
  simp only [Flash.byte, Flash.unlisted_write]
  simp only [Flash.write]
  split
  · next h => simp [h]
  · simp

theorem Flash.byte_write_ne (f : Flash) {a b : Nat} (v : Byte) (h : b ≠ a) : (f.write a v).byte b = f.byte b := by
  simp only [Flash.byte, Flash.unlisted_write]
  simp only [Flash.write]
  split
  · rw [assocGet_assocDrop_ne _ h]
  · rw [assocGet_assocSet_ne _ _ h]

theorem HalfWord.halfOf_low_high (v : HalfWord) : halfOf v.low v.high = v := by
  apply BitVec.eq_of_getLsbD_eq
  intro i hi
  simp only [halfOf, HalfWord.low, HalfWord.high, BitVec.getLsbD_append, BitVec.getLsbD_setWidth,
    BitVec.getLsbD_ushiftRight]
  by_cases h : i < 8
  · simp [h]
  · have h2 : i - 8 < 8 := by omega
    have h3 : 8 + (i - 8) = i := by omega
    simp [h, h2, h3]

@[simp] theorem halfOf_low (lo hi : Byte) : HalfWord.low (halfOf lo hi) = lo := by
  apply BitVec.eq_of_getLsbD_eq
  intro i hi'
  simp only [halfOf, HalfWord.low, BitVec.getLsbD_setWidth, BitVec.getLsbD_append, hi', decide_true, Bool.true_and,
    if_true]

@[simp] theorem halfOf_high (lo hi : Byte) : HalfWord.high (halfOf lo hi) = hi := by
  apply BitVec.eq_of_getLsbD_eq
  intro i hi'
  have h1 : ¬ 8 + i < 8 := by omega
  have h2 : 8 + i - 8 = i := by omega
  simp only [halfOf, HalfWord.high, BitVec.getLsbD_setWidth, BitVec.getLsbD_ushiftRight, BitVec.getLsbD_append, hi',
    decide_true, Bool.true_and, h1, h2, if_false]

@[simp] theorem Flash.half_writeHalf (f : Flash) (s : SlotRef) (h : Fin 256) (v : HalfWord) :
    (f.writeHalf s h v).half s h = v := by
  simp only [Flash.half, Flash.writeHalf]
  rw [Flash.byte_write_ne _ _ (s.addr_half_ne h).symm]
  simp [HalfWord.halfOf_low_high]

theorem Flash.byte_writeHalf_ne (f : Flash) (s : SlotRef) (h : Fin 256) (v : HalfWord) (a : Nat)
    (h0 : a ≠ s.addr (2 * h.val)) (h1 : a ≠ s.addr (2 * h.val + 1)) : (f.writeHalf s h v).byte a = f.byte a := by
  simp only [Flash.writeHalf]
  rw [Flash.byte_write_ne _ _ h1, Flash.byte_write_ne _ _ h0]

theorem Flash.unlisted_eraseBlock (f : Flash) (i a : Nat) :
    (f.eraseBlock i).unlisted a = if a / Config.blockBytes = i then 0xFF#8 else f.unlisted a := by
  by_cases h : a / Config.blockBytes = i
  · subst h; simp [Flash.unlisted, Flash.eraseBlock]
  · simp [Flash.unlisted, Flash.eraseBlock, assocGet_assocDrop_ne _ h, h]

/-- After an erase with pass a byte of the block reads FFh, and every other byte reads as before (R100). -/
theorem Flash.byte_eraseBlock (f : Flash) (i a : Nat) :
    (f.eraseBlock i).byte a = if a / Config.blockBytes = i then 0xFF#8 else f.byte a := by
  simp only [Flash.byte, Flash.unlisted_eraseBlock]
  have := assocGet_filter f.cells (fun k => k / Config.blockBytes != i) a
  simp only [Flash.eraseBlock, this]
  by_cases h : a / Config.blockBytes = i <;> simp [h]

theorem Flash.unlisted_spoilBlock_ne (f : Flash) {i n a : Nat} (h : a / Config.blockBytes ≠ i) :
    (f.spoilBlock i n).unlisted a = f.unlisted a := by
  simp [Flash.unlisted, Flash.spoilBlock, assocGet_assocSet_ne _ _ h]

/-- An erase that did not complete with pass leaves every byte outside its block as it was. -/
theorem Flash.byte_spoilBlock_ne (f : Flash) {i n a : Nat} (h : a / Config.blockBytes ≠ i) :
    (f.spoilBlock i n).byte a = f.byte a := by
  simp only [Flash.byte, Flash.unlisted_spoilBlock_ne f h]
  have := assocGet_filter f.cells (fun k => k / Config.blockBytes != i) a
  simp only [Flash.spoilBlock, this]
  simp [h]

/-- A part erase leaves every byte outside its block as it was. -/
theorem Flash.byte_partErase_ne (f : Flash) {i n a : Nat} (h : a / Config.blockBytes ≠ i) :
    (f.partErase i n).byte a = f.byte a := by
  have hu : (f.partErase i n).unlisted a = f.unlisted a := rfl
  suffices assocGet (f.partErase i n).cells a = assocGet f.cells a by simp only [Flash.byte, hu, this]
  simp only [Flash.partErase]
  generalize f.cells = l
  induction l with
  | nil => rfl
  | cons c t ih =>
    obtain ⟨k, v⟩ := c
    by_cases hk : a = k
    · subst hk
      simp [h, assocGet]
    · simp only [List.filterMap_cons, assocGet, hk, if_false]
      split
      · exact ih
      · next x hx =>
        have hx1 : x.1 = k := by
          split at hx
          · split at hx
            · cases hx
            · cases hx; rfl
          · cases hx; rfl
        obtain ⟨x1, x2⟩ := x
        cases hx1
        simp [assocGet, hk, ih]

/-- An erase of A0 that did not complete with pass leaves every byte outside A0 as it was. -/
theorem Flash.byte_spoilVolume_ne (f : Flash) {n a : Nat} (h : a / Config.blockBytes ≠ 0) :
    (f.spoilVolume n).byte a = f.byte a := by
  have h0 : a / Config.blockBytes ≠ BlockRef.index volumeBlock := h
  simp only [Flash.spoilVolume]
  split
  · exact f.byte_partErase_ne h0
  · rw [Flash.byte_write_ne, f.byte_partErase_ne h0]
    rintro rfl
    exact h (SlotRef.addr_div _ _)

/-- An erase of A0 that did not complete with pass leaves the previous volume or no valid record (R149, R150). -/
theorem Flash.spoilVolume_mayBecome (f : Flash) (n : Nat) :
    f.volume.mayBecome (f.spoilVolume n).volume = true := by
  simp only [Flash.spoilVolume]
  split
  · next h => exact h
  · have hb : ((f.partErase (BlockRef.index volumeBlock) n).write ((headerOf volumeBlock).addr 0) 0xFF#8).volume.mark ≠
        Config.formatMark := by
      intro hm
      have hl := congrArg HalfWord.low hm
      simp only [Flash.volume, volumeAt, halfAt, halfOf_low] at hl
      have h0 : byteAt (Flash.bytes ((f.partErase (BlockRef.index volumeBlock) n).write
          ((headerOf volumeBlock).addr 0) 0xFF#8) (headerOf volumeBlock) 0 8) 0 = 0xFF#8 := by
        show Flash.byte _ ((headerOf volumeBlock).addr 0) = _
        exact Flash.byte_write_same _ _ _
      rw [h0] at hl
      exact absurd hl (by decide)
    simp [VolumeRecord.mayBecome, VolumeRecord.mountable, VolumeRecord.valid, VolumeRecord.readable, hb]

/-! ## Programs cut short -/

/-- A program cut short sets no bit (R101). -/
theorem cutHalf_clears (f : CodeField) (k : CutCodes) (old v free : HalfWord)
    (hv : k.old = false → f.of v &&& old = f.of v) :
    cutHalf f k old v free &&& old = cutHalf f k old v free := by
  have comm : ∀ x y z : HalfWord, x &&& y &&& z = x &&& z &&& y := by
    intro x y z; rw [BitVec.and_assoc, BitVec.and_comm y z, ← BitVec.and_assoc]
  have key : ∀ x m w : HalfWord, x &&& old = x → w &&& old = w → (x &&& m ||| w) &&& old = x &&& m ||| w := by
    intro x m w hx hw
    rw [BitVec.and_or_distrib_right, comm, hx, hw]
  have hx : ∀ y : HalfWord, (old &&& y) &&& old = old &&& y := by
    intro y; rw [comm, BitVec.and_self]
  simp only [cutHalf]
  split
  · exact hx _
  · refine key _ _ _ (hx _) ?_
    cases hk : k.old
    · simpa [hk] using hv hk
    · simp only [if_true, CodeField.of]; exact hx _

/-- The code that a program cut short leaves is damaged, or the old code or the intended one where allowed. -/
theorem cutHalf_code (f : CodeField) (k : CutCodes) (old v free : HalfWord) (hk : k.old = true ∨ k.intended = true) :
    f.damaged (cutHalf f k old v free) = true ∨
      (k.old = true ∧ f.of (cutHalf f k old v free) = f.of old) ∨
      (k.intended = true ∧ f.of (cutHalf f k old v free) = f.of v) := by
  have hof : ∀ x w : HalfWord, f.of ((x &&& ~~~f.mask) ||| f.of w) = f.of w := by
    intro x w
    simp only [CodeField.of]
    rw [BitVec.and_or_distrib_right, BitVec.and_assoc, BitVec.and_assoc, BitVec.and_self]
    simp
  simp only [cutHalf]
  split
  · next h => simpa [Bool.or_eq_true, or_assoc] using h
  · rw [hof]
    cases ho : k.old
    · exact .inr (.inr ⟨by simpa [ho] using hk, by simp⟩)
    · exact .inr (.inl ⟨rfl, by simp⟩)

/-- Outside the code a program cut short only clears bits that it was to clear. -/
theorem cutHalf_rest (f : CodeField) (k : CutCodes) (old v free : HalfWord) :
    cutHalf f k old v free &&& ~~~f.mask = old &&& (v ||| free) &&& ~~~f.mask := by
  have hx : (old &&& (free ||| (v &&& ~~~f.mask))) &&& ~~~f.mask = old &&& (v ||| free) &&& ~~~f.mask := by
    simp only [BitVec.and_assoc, BitVec.and_or_distrib_right, BitVec.and_self]
    rw [BitVec.or_comm]
  have hm : ∀ w : HalfWord, f.of w &&& ~~~f.mask = 0#16 := by
    intro w; simp only [CodeField.of]; rw [BitVec.and_assoc]; simp
  simp only [cutHalf]
  split
  · exact hx
  · rw [BitVec.and_or_distrib_right, hm, BitVec.or_zero, BitVec.and_assoc, BitVec.and_self, hx]

/-- The state code of a descriptor halfword is its low byte. -/
theorem CodeField.of_descriptor (x : HalfWord) : CodeField.of .descriptor x = x.low.setWidth 16 := by
  apply BitVec.eq_of_getLsbD_eq
  intro i hi
  simp only [CodeField.of, CodeField.mask, HalfWord.low, BitVec.getLsbD_and, BitVec.getLsbD_setWidth]
  interval_cases i <;> simp

/-- All that a program cut short can leave. -/
theorem cutHalf_leaves (c : ReqClass) (timedOut : Bool) (slot : SlotRef) (h : Fin 256) (v old free : HalfWord) :
    CutLeaves c timedOut slot h v old
      (cutHalf (codeFieldOf slot h) ((codeFieldOf slot h).cut c timedOut v) old v free) := by
  unfold CutLeaves
  generalize codeFieldOf slot h = f
  have hk : (f.cut c timedOut v).old = true ∨ (f.cut c timedOut v).intended = true := by
    cases f <;> simp only [CodeField.cut] <;> (try split) <;> simp
  have hclear := cutHalf_clears f (f.cut c timedOut v) old v free (by
    cases f <;> simp only [CodeField.cut] <;> (try split) <;> simp_all)
  have hcode := cutHalf_code f (f.cut c timedOut v) old v free hk
  have hrest := cutHalf_rest f (f.cut c timedOut v) old v free
  revert hclear hcode hrest
  generalize cutHalf f (f.cut c timedOut v) old v free = new
  intro hclear hcode hrest
  have named : ∀ x, f.of new = x → x ∈ f.names → f.damaged new = false := by
    intro x hx hm; simpa [CodeField.damaged, hx] using hm
  have low : ∀ (x : HalfWord) (b : Byte), x.low = b → CodeField.of .descriptor x = b.setWidth 16 := by
    intro x b hx; rw [CodeField.of_descriptor, hx]
  refine ⟨by rw [BitVec.and_comm]; exact hclear, ⟨free, hrest⟩, ?_, ?_, ?_, ?_, ?_, ?_, ?_⟩
  · rcases hcode with h | ⟨_, h⟩ | ⟨_, h⟩
    · exact .inl h
    · exact .inr (.inl h)
    · exact .inr (.inr h)
  · rintro rfl hv hn
    rcases hcode with h | ⟨_, h⟩ | ⟨h, _⟩
    · rw [named _ (low new _ hn) (by decide)] at h; cases h
    · rw [CodeField.of_descriptor, CodeField.of_descriptor] at h
      have := congrArg (BitVec.setWidth 8) h
      simpa [hn, eq_comm] using this
    · simp [CodeField.cut, low v _ hv] at h
  · rintro rfl hv rfl hc hn
    rcases hcode with h | ⟨_, h⟩ | ⟨h, _⟩
    · rw [named _ (low new _ hn) (by decide)] at h; cases h
    · rw [CodeField.of_descriptor, CodeField.of_descriptor] at h
      have := congrArg (BitVec.setWidth 8) h
      simpa [hn, eq_comm] using this
    · simp [CodeField.cut, low v _ hv, hc] at h
  · rintro rfl hv hn
    rcases hcode with h | ⟨_, h⟩ | ⟨h, _⟩
    · rw [named _ hn (by decide)] at h; cases h
    · rw [← h, hn]
    · simp [CodeField.cut, hv] at h
  · rintro rfl hv rfl hn
    rcases hcode with h | ⟨_, h⟩ | ⟨h, _⟩
    · rw [named _ hn (by decide)] at h; cases h
    · rw [← h, hn]
    · simp [CodeField.cut, hv] at h
  · rintro rfl hv rfl rfl
    rcases hcode with h | ⟨h, _⟩ | ⟨_, h⟩
    · exact .inl h
    · simp [CodeField.cut, hv] at h
    · exact .inr (h.trans hv)
  · rintro rfl hn
    have hof : ∀ x : HalfWord, CodeField.of .formatMark x = x := by
      intro x
      show x &&& 0xFFFF#16 = x
      exact BitVec.and_allOnes
    rcases hcode with h | ⟨_, h⟩ | ⟨h, _⟩
    · rw [named _ ((hof new).trans hn) (by decide)] at h; cases h
    · rw [hof, hof] at h; rw [← h, hn]
    · simp [CodeField.cut] at h

/-! ## The canonical form -/

/-- What the canonical form says. -/
theorem Flash.wf_iff (f : Flash) :
    f.wf = true ↔ assocRising f.cells = true ∧
      (∀ c ∈ f.cells, c.1 < Config.bankBytes ∧ c.2 ≠ f.unlisted c.1) ∧ assocRising f.spoiled = true := by
  simp [Flash.wf, and_assoc]

theorem Flash.wf_erased : Flash.erased.wf = true := by decide

theorem Flash.wf_write (f : Flash) (a : Nat) (v : Byte) (h : f.wf = true) (ha : a < Config.bankBytes) :
    (f.write a v).wf = true := by
  rw [Flash.wf_iff] at *
  obtain ⟨h1, h2, h3⟩ := h
  refine ⟨?_, ?_, h3⟩
  · simp only [Flash.write]
    split
    · exact assocRising_assocDrop _ _ h1
    · exact assocRising_assocSet _ _ _ h1
  · intro c hc
    simp only [Flash.unlisted_write]
    simp only [Flash.write] at hc
    split at hc
    · exact h2 c (List.mem_of_mem_filter hc)
    · next hv =>
      rcases mem_assocSet hc with rfl | hc
      · exact ⟨ha, hv⟩
      · exact h2 c hc

theorem Flash.wf_writeHalf (f : Flash) (s : SlotRef) (h : Fin 256) (v : HalfWord) (hw : f.wf = true) :
    (f.writeHalf s h v).wf = true :=
  Flash.wf_write _ _ _ (Flash.wf_write _ _ _ hw (s.addr_lt _)) (s.addr_lt _)

theorem Flash.wf_eraseBlock (f : Flash) (i : Nat) (h : f.wf = true) : (f.eraseBlock i).wf = true := by
  rw [Flash.wf_iff] at *
  obtain ⟨h1, h2, h3⟩ := h
  refine ⟨assocRising_filter _ _ h1, ?_, assocRising_assocDrop _ _ h3⟩
  intro c hc
  obtain ⟨hm, hp⟩ := List.mem_filter.1 hc
  have hne : c.1 / Config.blockBytes ≠ i := by simpa using hp
  refine ⟨(h2 c hm).1, ?_⟩
  rw [Flash.unlisted_eraseBlock]
  simpa [hne] using (h2 c hm).2

theorem Flash.wf_spoilBlock (f : Flash) (i n : Nat) (h : f.wf = true) : (f.spoilBlock i n).wf = true := by
  rw [Flash.wf_iff] at *
  obtain ⟨h1, h2, h3⟩ := h
  refine ⟨assocRising_filter _ _ h1, ?_, assocRising_assocSet _ _ _ h3⟩
  intro c hc
  obtain ⟨hm, hp⟩ := List.mem_filter.1 hc
  have hne : c.1 / Config.blockBytes ≠ i := by simpa using hp
  refine ⟨(h2 c hm).1, ?_⟩
  rw [Flash.unlisted_spoilBlock_ne f hne]
  exact (h2 c hm).2

theorem Flash.wf_partErase (f : Flash) (i n : Nat) (h : f.wf = true) : (f.partErase i n).wf = true := by
  rw [Flash.wf_iff] at *
  obtain ⟨h1, h2, h3⟩ := h
  refine ⟨?_, ?_, h3⟩
  · rw [assocRising_iff] at *
    refine h1.filterMap _ ?_
    intro a a' haa b hb b' hb'
    have fst : ∀ c d : Nat × Byte, (if c.1 / Config.blockBytes = i then
        let v := c.2 ||| Config.spoiledByte n c.1
        if v = f.unlisted c.1 then none else some (c.1, v) else some c) = some d → d.1 = c.1 := by
      intro c d hd
      split at hd
      · simp only at hd
        split at hd
        · cases hd
        · cases hd; rfl
      · cases hd; rfl
    rw [fst _ _ hb, fst _ _ hb']
    exact haa
  · intro c hc
    obtain ⟨d, hd, hcd⟩ := List.mem_filterMap.1 hc
    show c.1 < Config.bankBytes ∧ c.2 ≠ f.unlisted c.1
    split at hcd
    · simp only at hcd
      split at hcd
      · cases hcd
      · next hv => cases hcd; exact ⟨(h2 d hd).1, hv⟩
    · cases hcd; exact h2 _ hd

theorem Flash.wf_spoilVolume (f : Flash) (n : Nat) (h : f.wf = true) : (f.spoilVolume n).wf = true := by
  simp only [Flash.spoilVolume]
  split
  · exact f.wf_partErase _ _ h
  · exact Flash.wf_write _ _ _ (f.wf_partErase _ _ h) (SlotRef.addr_lt _ _)

/-! ## The operations on the state's arrays -/

theorem memoryWf_iff (s : State) : s.memoryWf = true ↔ ∀ bk, (s.flash bk).wf = true := by
  constructor
  · intro h bk
    simp only [State.memoryWf, Bool.and_eq_true] at h
    cases bk
    · exact h.1
    · exact h.2
  · intro h
    simp only [State.memoryWf, Bool.and_eq_true]
    exact ⟨h .a, h .b⟩

theorem memoryWf_reset : State.reset.memoryWf = true := by decide

theorem memoryWf_setFlash (s : State) (bk : BankId) (f : Flash) (h : s.memoryWf = true) (hf : f.wf = true) :
    (s.setFlash bk f).memoryWf = true := by
  rw [memoryWf_iff] at *
  intro bk2
  by_cases hb : bk2 = bk
  · subst hb; simpa using hf
  · rw [setFlash_flash_ne s f hb]; exact h bk2

theorem memoryWf_setHalf (s : State) (bk : BankId) (slot : SlotRef) (hw : Fin 256) (v : HalfWord)
    (h : s.memoryWf = true) : (setHalf bk slot hw v s).memoryWf = true :=
  memoryWf_setFlash _ _ _ h (Flash.wf_writeHalf _ _ _ _ ((memoryWf_iff s).1 h bk))

theorem memoryWf_takeFree (s : State) (h : s.memoryWf = true) : s.takeFree.memoryWf = true := h

theorem memoryWf_halfDone (s : State) (bk : BankId) (c : ReqClass) (out : Bool) (slot : SlotRef) (hw : Fin 256)
    (v : HalfWord) (h : s.memoryWf = true) : (halfDone bk c out slot hw v s).memoryWf = true :=
  memoryWf_takeFree _ (memoryWf_setFlash _ _ _ h (Flash.wf_writeHalf _ _ _ _ ((memoryWf_iff s).1 h bk)))

theorem memoryWf_eraseArray (s : State) (b : BlockRef) (pass : Bool) (h : s.memoryWf = true) :
    (eraseArray b pass s).memoryWf = true := by
  have hb := (memoryWf_iff s).1 h (BlockRef.bank b)
  cases pass
  · simp only [eraseArray, Bool.false_eq_true, if_false]
    split
    · exact memoryWf_takeFree _ (memoryWf_setFlash _ _ _ h (Flash.wf_spoilVolume _ _ ((memoryWf_iff s).1 h .a)))
    · exact memoryWf_takeFree _ (memoryWf_setFlash _ _ _ h (Flash.wf_spoilBlock _ _ _ hb))
  · exact memoryWf_setFlash _ _ _ h (Flash.wf_eraseBlock _ _ hb)

theorem memoryWf_interruptProgram (s : State) (bk : BankId) (h : s.memoryWf = true) :
    (interruptProgram bk s).memoryWf = true := by
  unfold interruptProgram
  split
  · exact memoryWf_halfDone _ _ _ _ _ _ _ h
  · exact memoryWf_halfDone _ _ _ _ _ _ _ h
  · exact h
  · exact h

theorem memoryWf_interruptErase (s : State) (bk : BankId) (h : s.memoryWf = true) :
    (interruptErase bk s).memoryWf = true := by
  unfold interruptErase
  split
  · exact memoryWf_eraseArray _ _ _ h
  · exact h

theorem memoryWf_interruptFlash (s : State) (h : s.memoryWf = true) : (interruptFlash s).memoryWf = true :=
  memoryWf_interruptErase _ _ (memoryWf_interruptProgram _ _ (memoryWf_interruptErase _ _
    (memoryWf_interruptProgram _ _ h)))

end Sys2Proof.Machine
end

