-- ==== Sys2Proof/Tests/Slice0.lean ====
section
/-! SUPPORT. Checks of this model: what WellFormed refuses; one small step for each command, the expected value taken
from the rule its comment names; and, for every statement with hypotheses, a state that meets them. -/

-- In order: as one text the package would otherwise start more threads than memory has stacks for.
set_option Elab.async false
set_option linter.all false

namespace Sys2Proof.Tests

open Sys2Proof.Machine

/-! ## Small states -/

/-- The part just after RESET_RELEASED would have made the port IDLE, with nothing else begun. -/
def idleReset : State := { State.reset with port := { state := .idle, holdTimer := none, cycle := none } }

/-- In UNFORMATTED. -/
def unformatted : State := idleReset.setService .unformatted

/-- In ACTIVE with L = 256 on two banks and no block table. -/
def bare : State :=
  { idleReset with service := { state := .active, strap := .two, latch := .none, pages := some 256,
                                bankCount := some 2, serial := some 1 } }

/-- In ACTIVE with block A1 open at slot 4, page 5 in its slot 2 with version 7, and three free blocks. -/
def active : State :=
  { bare with
    pageMap := [(5, { slot := { block := 1, slot := 2 }, version := 7 })]
    blocks := { BlockManager.reset with
      records := [(1, { state := .opened, eraseCount := 3, claimed := 3, live := 1, condemned := false }),
                  (2, { state := .free, eraseCount := 9, claimed := 0, live := 0, condemned := false }),
                  (3, { state := .free, eraseCount := 4, claimed := 0, live := 0, condemned := false }),
                  (64, { state := .free, eraseCount := 4, claimed := 0, live := 0, condemned := false })]
      openBlock := some (1, 4) } }

/-- An entry for a page with one staged byte at offset 0. -/
def entryOf (st : EntryState) (page : Nat) (seq : BitVec 32) : Entry :=
  { state := st, page := some page, staged := [(0, 0x11#8)], openSeq := seq,
    idle := if st = .gathering then some 9 else none, age := if st = .gathering then some 9 else none,
    attempts := 0, cohort := false }

/-- `active` with entry 0 GATHERING for page 5. -/
def gathering : State := active.setEntry 0 (entryOf .gathering 5 0)

/-- `active` with entry 1 CLOSED for page 5 and in the queue. -/
def closed : State := (active.setEntry 1 (entryOf .closed 5 0)).setQueue [1]

/-- `active` with every entry in a state. -/
def filled (st : EntryState) : State :=
  (List.finRange 8).foldl (fun s i => s.setEntry i (entryOf st (20 + i.val) (BitVec.ofNat 32 i.val))) active

/-- A read cycle of page 5 at offset 0. -/
def readCycle : Cycle :=
  { kind := .read, page := 5, offset := 0, lower := true, upper := true, data := none, arrival := 0,
    holdLimit := 1000, wait := .bank, stagedLow := some 0x11#8, stagedHigh := none,
    slot := some { block := 1, slot := 2 }, handed := true, outcome := none }

/-- A held write of page 5. -/
def heldWrite : Cycle :=
  { readCycle with kind := .write, data := some 0x2211#16, wait := .staging, stagedLow := none, slot := none,
                   handed := false }

/-- A state with a HOLDING cycle. -/
def holding (c : Cycle) (s : State) : State :=
  { s with port := { state := .holding, holdTimer := some 1000, cycle := some c } }

/-- A state with a DONE cycle. -/
def done (s : State) : State :=
  { s with port := { state := .done, holdTimer := none,
                     cycle := some { heldWrite with wait := .none, outcome := some { fault := true, data := none } } } }

/-- A state whose bank A carries out an action of a class for a request. -/
def busy (c : ReqClass) (op : ReqOp) (act : Action) (st : BankState) (s : State) : State :=
  { s with bankA := { BankCtl.reset with
      state := st
      mover := if c = .mover then some { op := op, moment := 0, begun := true } else none
      descriptor := if c = .descriptor then some { op := op, moment := 0, begun := true } else none
      volume := if c = .volume then some { op := op, moment := 0, begun := true } else none
      active := some { cls := c, act := act }
      programTimer := if act.isProgram then some 500 else none } }

/-- The erase of A2 by a requester. -/
def eraseOf (r : EraseRequester) : EraseContext :=
  { block := 2, requester := r, runningTime := 10, eraseTimeout := 4000, quantum := 2000, suspendLimit := 32,
    suspendCount := 0, quantumTimer := none, cause := .read, powerHold := false }

/-- A state whose bank A has the erase of A2 in progress, A2 being ERASING. -/
def erasing (st : BankState) (s : State) : State :=
  { s.modifyRecord 2 (fun r => { r with state := .erasing }) with
    bankA := { BankCtl.reset with state := st, context := some (eraseOf .blockManager), suspendTimer := some 5 } }

/-- A commit of entry 1, page 5, into slot 4 of A1. -/
def commitAt (phase : Phase) : OpRecord :=
  { kind := .commit 1 false, page := 5, source := some { slot := { block := 1, slot := 2 }, version := 7 },
    newVersion := 8, newSlot := some { block := 64, slot := 4 }, phase := phase }

/-- `active` with that commit in progress. -/
def committing (phase : Phase) : State :=
  (active.setEntry 1 (entryOf .committing 5 0)).setActivity (.running (commitAt phase))

/-- The request and the action of a VALID program of that commit's new slot. -/
def validMark : ReqOp := .mark { block := 64, slot := 4 } codeValid

/-- The commit's VALID program at its verify read, on bank B. -/
def validVerify : State :=
  let s := busy .mover validMark (.verify (headerOf 64) 9 0x3008#16) .program (committing .valid)
  { s with bankA := .reset, bankB := s.bankA }

/-- The commit's VALID program under way. -/
def programming : State :=
  busy .mover validMark (.program (headerOf 64) 9 0x3008#16) .program (committing .valid)

/-- Its verify read over an array that holds 3008h there. -/
def validVerifyOver : State := { validVerify with flashB := Flash.erased.writeHalf (headerOf 64) 9 0x3008#16 }

/-- Bank A carries out the host read of slot 2 of A1. -/
def reading (withdrawn : Bool) : State :=
  { active with bankA := { BankCtl.reset with
      state := .read
      hostRead := some { slot := { block := 1, slot := 2 }, offset := 0, withdrawn := withdrawn }
      active := some { cls := .host, act := .read { block := 1, slot := 2 } 0 2 } } }

/-- That read over an array that holds 3344h there. -/
def stored : State :=
  { reading false with flashA := Flash.erased.writeHalf { block := 1, slot := 2 } 0 0x3344#16 }

/-- The work of a mount on a bank in a phase. -/
def mountBank (p : MountPhase) : MountBank := MountBank.start p

/-- A mount in progress with these phases. -/
def mounting (a b : MountPhase) (valid : Bool) : State :=
  idleReset.setEngine (.mount { a := mountBank a, b := mountBank b, valid := valid, repaired := false, condemned := [] })

/-- The work of a format in these phases. -/
def formatWork (stage : FormatStage) (p : FormatPhase) (abandoned : Bool) : FormatWork :=
  { pages := 256, banks := .two, stage := stage, a := { phase := p, known := [], made := [] },
    b := { phase := p, known := [], made := [] }, abandoned := abandoned }

/-- A format in progress. -/
def formatting (stage : FormatStage) (p : FormatPhase) (abandoned : Bool) : State :=
  (idleReset.setService .formatting).setEngine (.format (formatWork stage p abandoned))

/-- A frame has just started. -/
def inFrame (s : State) : State := s.setReceiver { Receiver.reset with state := .command }

/-- A state with a bank in RESETTING. -/
def resetting (bk : BankId) (s : State) : State :=
  s.setBank bk { BankCtl.reset with state := .resetting, resetTimer := some 500 }

/-- `active` with these bits of a command byte sampled. -/
def inByte (bits : List Bool) : State := active.setReceiver { Receiver.reset with state := .command, bits := bits }

/-- PFAIL at a level. -/
def withPfail (b : Bool) (s : State) : State := { s with pins := { s.pins with pfail := b } }

/-- In DRAINED with a return state. -/
def drained (r : Option ReturnState) (s : State) : State :=
  { s.setService .drained with drain := { line := true, restartPending := false, returnState := r } }

/-- A property holds of the state after a command. -/
def after (c : Instr) (s : State) (p : State → Bool) : Bool :=
  match exec c s with
  | .next t => p t
  | .fault _ => false
  | .refused _ => false

/-! ## WellFormed: an ill-formed term for each check -/

/-- A known command byte is no unknown command (R166). -/
theorem test_wf_known_code : Instr.wf (.unknownCommand 0x01#8) = false := by decide +kernel
/-- A read answer gives at most the 512 bytes of a slot (R100). -/
theorem test_wf_long_answer : Instr.wf (.arrayReadDone .a (.other (List.replicate 513 0#8))) = false := by
  decide +kernel
/-- The table gives no bits, so no word spells a command. -/
theorem test_no_word_spells_a_command : decodeTableWord 16 0x1234 = none := by decide +kernel

/-! ## One step of each command -/

/-- POWER_ON reads the strap and leaves RESET asserted, MOUNTING (R127, R129). -/
theorem test_power_on :
    (after (.powerOn .one) active fun t =>
      t.service.strap == .one && t.port.state == .inReset && t.service.state == .mounting) = true := by decide +kernel

/-- A pin reset gives the parameters their defaults: commit delay 2000 (R173). -/
theorem test_reset_asserted :
    (after (.resetAsserted .two) (setParam 1 7 active) fun t =>
      t.mgmt.params.commitDelay == 2000) = true := by decide +kernel

/-- The mount begins with a bank reset of each bank (R135), bounded by the program timeout, 500 (R110). -/
theorem test_reset_released :
    (after .resetReleased State.reset fun t =>
      t.port.state == .idle && t.bankA.state == .resetting && t.bankB.resetTimer == some 500) = true := by
  decide +kernel

/-- A read of an UNMAPPED page returns FFFFh with no FAULT (R121). -/
theorem test_read_unmapped :
    (after (.hostReadArrival 0x000100#22 true true) active fun t =>
      t.dataLines == some 0xFFFF#16 && !t.faultPin) = true := by decide +kernel

/-- A read of page 5 (halfword address 500h) goes to the host read slot of bank A, its slot's bank (R121). -/
theorem test_read_mapped :
    (after (.hostReadArrival 0x000500#22 true true) active fun t =>
      t.port.state == .holding && t.bankA.state == .read) = true := by decide +kernel

/-- A write of the upper byte at offset 2 of page 6 covers offset 3 alone (R115, R27). -/
theorem test_write_opens :
    (after (.hostWriteArrival 0x000601#22 false true 0xABCD#16) active fun t =>
      (t.entry 0).staged == [(3, 0xAB#8)] && (t.entry 0).page == some 6) = true := by decide +kernel

/-- A merge replaces the staged byte and counts one HOST WRITE (R26, R29). -/
theorem test_write_merges :
    (after (.hostWriteArrival 0x000500#22 true false 0xABCD#16) gathering fun t =>
      (t.entry 0).staged == [(0, 0xCD#8)] && t.counter .hostWrites == 1#32) = true := by decide +kernel

/-- Both strobes: FAULT and no flag (R115, R126). -/
theorem test_both_strobes :
    (after (.cycleBothStrobes 0x000500#22 true true) active fun t =>
      t.faultPin && t.mgmt.flags == 0#16) = true := by decide +kernel

/-- A DONE cycle ends: IDLE with no record (R116). -/
theorem test_cycle_end :
    (after .cycleEnd (done active) fun t =>
      t.port == { state := .idle, holdTimer := none, cycle := none }) = true := by decide +kernel

/-- Abandonment sets no flag and changes no counter (R125). -/
theorem test_cycle_abandoned :
    (after .cycleAbandoned (holding heldWrite active) fun t =>
      t.port.state == .idle && t.mgmt == active.mgmt) = true := by decide +kernel

/-- Hold expiry of a read: FAULT, FFFFh and HOLD TIMEOUT (R124). -/
theorem test_hold_expiry :
    (after .holdTimerExpiry (holding readCycle active) fun t =>
      t.dataLines == some 0xFFFF#16 && t.faultPin && t.hasFlag .holdTimeout) = true := by decide +kernel

/-- Idle expiry closes the entry, and its commit is granted at once (R32, R50). -/
theorem test_idle_expiry :
    (after (.idleTimerExpiry 0) gathering fun t =>
      (t.entry 0).state == .committing && t.staging.queue == []) = true := by decide +kernel

/-- Age expiry closes a GATHERING entry (R33); under reserve hold it waits in the queue (R52). -/
theorem test_age_expiry :
    (after (.ageTimerExpiry 0) (gathering.setReserveHold true) fun t =>
      (t.entry 0).state == .closed && t.staging.queue == [0]) = true := by decide +kernel

/-- The halfword returned goes under the staged low byte (R122): 11h staged, 33h in flash. -/
theorem test_array_read_done :
    (after (.arrayReadDone .a .array) (holding readCycle stored) fun t =>
      t.dataLines == some 0x3311#16 && t.counter .hostReads == 1#32) = true := by decide +kernel

/-- The end of a program starts its verify read (R101). -/
theorem test_program_end :
    (after (.programEnd .a) programming fun t =>
      t.bankA.programTimer == none &&
        t.bankA.active == some { cls := .mover, act := .verify (headerOf 64) 9 0x3008#16 }) = true := by
  decide +kernel

/-- The VALID program passes: the map names B0 slot 4 with version 8 (R5, R60). -/
theorem test_program_verify_pass :
    (after (.programVerifyDone .b 0x3008#16) validVerify fun t =>
      t.mapped 5 == some { slot := { block := 64, slot := 4 }, version := 8 }) = true := by decide +kernel

/-- A value read that is not the one intended fails, a 1 read where both the array and the intention have 0 included
(R101): one PROGRAM FAILURE, and the map keeps the old slot (R61). -/
theorem test_program_verify_fail :
    (after (.programVerifyDone .b 0x3009#16) validVerifyOver fun t =>
      t.mapped 5 == some { slot := { block := 1, slot := 2 }, version := 7 } &&
        t.counter .programFailures == 1#32) = true := by
  decide +kernel

/-- An erase passes: the count 9 becomes 10 and FRESH is requested (R86). -/
theorem test_erase_complete :
    (after (.eraseComplete .a true) (erasing .erase active) fun t =>
      (t.record 2).map (fun r => r.eraseCount) == some 10 && t.bankA.descriptor.isSome &&
        t.counter .erases == 1#32) = true := by
  decide +kernel

/-- In SUSPENDING the erase ends in the same way (R105). -/
theorem test_erase_complete_suspending :
    (after (.eraseCompleteInSuspending .a true) (erasing .suspending active) fun t =>
      (t.record 2).map (fun r => r.eraseCount) == some 10 && t.bankA.suspendTimer == none) = true := by decide +kernel

/-- The acknowledgement is counted; with no read waiting the erase resumes at once (R104, R106). -/
theorem test_suspend_acknowledged :
    (after (.suspendAcknowledged .a) (erasing .suspending active) fun t =>
      t.counter .eraseSuspends == 1#32 && t.bankA.state == .erase) = true := by decide +kernel

/-- With no read waiting the quantum's end requests no suspend (R103). -/
theorem test_quantum_expiry :
    (after (.quantumTimerExpiry .a) (erasing .erase active) fun t =>
      t.bankA.state == .erase) = true := by decide +kernel

/-- A program timeout counts a failure and begins a bank reset (R109). -/
theorem test_program_timeout :
    (after (.programTimeout .a) programming fun t =>
      t.bankA.state == .resetting && t.counter .programFailures == 1#32) = true := by decide +kernel

/-- No acknowledgement: the erase fails and a bank reset begins (R109). -/
theorem test_suspend_ack_timeout :
    (after (.suspendAckTimeout .a) (erasing .suspending active) fun t =>
      t.bankA.state == .resetting && t.bankA.context == none) = true := by decide +kernel

/-- The erase timeout fails the erase: ERASES stays 0 and the count stays 9 (R108, R86). -/
theorem test_erase_timeout :
    (after (.eraseTimeout .a) (erasing .erase active) fun t =>
      t.bankA.state == .resetting && t.counter .erases == 0#32 &&
        (t.record 2).map (fun r => r.eraseCount) == some 9) = true := by
  decide +kernel

/-- After the bank reset the mount reads slot 0 of A0 (R136). -/
theorem test_bank_reset_complete :
    (after (.bankResetComplete .a) (resetting .a (mounting .resetting .resetting false)) fun t =>
      t.bankA.active == some { cls := .volume, act := .read { block := 0, slot := 0 } 0 512 }) = true := by
  decide +kernel

/-- The bank reset ends at its timer too (R110). -/
theorem test_bank_reset_timer :
    (after (.bankResetTimerExpiry .b) (resetting .b active) fun t =>
      t.bankB.state == .idle && t.bankB.resetTimer == none) = true := by decide +kernel

/-- PFAIL in ACTIVE with nothing staged: the drain is done at once (R154, R155). -/
theorem test_pfail_asserted :
    (after .pfailAsserted active fun t =>
      t.service.state == .drained && t.drain.line && t.hasFlag .drainDone) = true := by decide +kernel

/-- PFAIL released in DRAINED: back to ACTIVE, the line falls (R156). -/
theorem test_pfail_released :
    (after .pfailReleased (withPfail true (drained (some .active) active)) fun t =>
      t.service.state == .active && !t.drain.line) = true := by decide +kernel

/-- The drain of a released PFAIL ends in ACTIVE (R155, R156). -/
theorem test_drain_finish :
    (after .drainFinish (setReturn (some .active) (active.setService .draining)) fun t =>
      t.service.state == .active && t.drain.returnState == none) = true := by decide +kernel

/-- An abandoned format at rest asserts the DRAINED line (R159). -/
theorem test_format_drained_assert :
    (after .formatDrainedAssert (withPfail true (formatting .reading .notStarted true)) fun t =>
      t.drain.line && t.hasFlag .drainDone) = true := by decide +kernel

/-- The abandoned format ends UNFORMATTED with FORMAT FAILED (R149). -/
theorem test_format_abandon_end :
    (after .formatAbandonEnd (formatting .reading .notStarted true) fun t =>
      t.service.state == .unformatted && t.hasFlag .formatFailed) = true := by decide +kernel

/-- With no candidate every page stays UNMAPPED, and no repair is made (R139, R140). -/
theorem test_mount_candidate_choice :
    (after .mountCandidateChoice (mounting .scanned .scanned true) fun t =>
      t.pageMap == [] && t.mountReady) = true := by decide +kernel

/-- The mount's end sets MOUNT DONE and enters ACTIVE (R142). -/
theorem test_mount_end :
    (after .mountEnd (mounting .ended .ended true) fun t =>
      t.service.state == .active && t.hasFlag .mountDone && !t.hasFlag .mountRepaired) = true := by decide +kernel

/-- The first format request to bank B is the descriptor of B0 (R145): 4 bytes of its slot 0. -/
theorem test_format_bank_start :
    (after (.formatBankStart .b) (formatting .reading .notStarted false) fun t =>
      t.bankB.active == some { cls := .volume, act := .read { block := 64, slot := 0 } 0 4 }) = true := by
  decide +kernel

/-- The record's halfword 1 is revision 1 and bank count 2 (R147). -/
theorem test_format_volume_record :
    (after .formatVolumeRecord (formatting .blocks .finished false) fun t =>
      t.bankA.active == some { cls := .volume, act := .program { block := 0, slot := 0 } 1 0x0201#16 }) = true := by
  decide +kernel

/-- SSEL asserted in IDLE starts a frame (R163). -/
theorem test_frame_start :
    (after .frameStart active fun t => t.mgmt.receiver.state == .command && t.pins.ssel) = true := by decide +kernel

/-- SSEL deasserted after 3 bits of a command byte sets FRAME ERROR (R165). -/
theorem test_frame_end :
    (after .frameEnd (inByte [false, false, true]) fun t =>
      t.hasFlag .frameError && t.mgmt.receiver.state == .idle) = true := by decide +kernel

/-- An unknown command byte is answered 03h (R166). -/
theorem test_unknown_command :
    (after (.unknownCommand 0x10#8) (inFrame active) fun t =>
      t.mgmt.receiver.response == [0x03#8]) = true := by decide +kernel

/-- IDENTIFY: 5732h, revision 0001h (R169). -/
theorem test_identify :
    (after .identify (inFrame active) fun t =>
      t.mgmt.receiver.response == [0x00#8, 0x57#8, 0x32#8, 0x00#8, 0x01#8]) = true := by decide +kernel

/-- STATUS in ACTIVE: state 3, F = 3, banks IDLE, L = 0100h, open block 01h at slot 4 (R169, R182). -/
theorem test_status :
    (after .status (inFrame active) fun t =>
      t.mgmt.receiver.response == [0#8, 3, 0, 3, 0, 0, 0, 0, 0, 0, 0, 0xFF#8, 0, 1, 0, 1, 4]) = true := by
  decide +kernel

/-- READ FLAGS of MOUNT DONE: bit 0 (R176, R177). -/
theorem test_read_flags :
    (after .readFlags (inFrame (active.setFlag .mountDone)) fun t =>
      t.mgmt.receiver.response == [0#8, 0, 1]) = true := by decide +kernel

/-- CLEAR FLAGS clears the flags of its mask and no other (R177). -/
theorem test_clear_flags :
    (after (.clearFlags 0x0001#16) (inFrame ((active.setFlag .mountDone).setFlag .frameError)) fun t =>
      t.mgmt.flags == 0x1000#16) = true := by decide +kernel

/-- A flag set before the mask is asserts ALERT at the mask (R178). -/
theorem test_set_alert_mask :
    (after (.setAlertMask 0xC001#16) (inFrame (active.setFlag .mountDone)) fun t =>
      t.alert && t.mgmt.alertMask == 0xC001#16) = true := by decide +kernel

/-- READ PARAM of the wear limit: 1024 (R173). -/
theorem test_read_param :
    (after (.readParam 6#8) (inFrame active) fun t =>
      t.mgmt.receiver.response == [0#8, 4, 0]) = true := by decide +kernel

/-- A value outside its range is BAD ARG and is not stored (R174): the age limit ends at 1000. -/
theorem test_write_param :
    (after (.writeParam 2#8 1001#16) (inFrame active) fun t =>
      t.mgmt.receiver.response == [2#8] && t.mgmt.params.ageLimit == 50) = true := by decide +kernel

/-- FLUSH with nothing staged sets FLUSH DONE at once (R44). -/
theorem test_flush :
    (after .flush (inFrame active) fun t => t.hasFlag .flushDone) = true := by decide +kernel

/-- RESUME COMMIT without COMMIT STUCK is BUSY (R168). -/
theorem test_resume_commit :
    (after .resumeCommit (inFrame active) fun t => t.mgmt.receiver.response == [1#8]) = true := by decide +kernel

/-- FORMAT with L = 255 is BAD ARG (R144, R168). -/
theorem test_format_bad_arg :
    (after (.format 255#16) (inFrame unformatted) fun t =>
      t.mgmt.receiver.response == [2#8]) = true := by decide +kernel

/-- FORMAT with L = 15621 on two banks is taken (R1, R144). -/
theorem test_format :
    (after (.format 15621#16) (inFrame unformatted) fun t =>
      t.service.state == .formatting && t.mgmt.receiver.response == [0#8]) = true := by decide +kernel

/-- RESTART in UNFORMATTED makes the internal reset (R160). -/
theorem test_restart :
    (after .restart (inFrame unformatted) fun t =>
      t.service.state == .mounting && t.bankA.state == .resetting) = true := by decide +kernel

/-- QUERY PAGE 5: slot 2 of A1, version 7, one GATHERING entry (R170). -/
theorem test_query_page :
    (after (.queryPage 5#16) (inFrame gathering) fun t =>
      t.mgmt.receiver.response == [0#8, 1, 2, 0, 7, 1, 0, 0, 0]) = true := by decide +kernel

/-- QUERY BLOCK A0 is BAD ARG: the volume block is no data block (R168, R171). -/
theorem test_query_block_volume :
    (after (.queryBlock 0#8 0#8) (inFrame active) fun t =>
      t.mgmt.receiver.response == [2#8]) = true := by decide +kernel

/-- QUERY BLOCK A1: OPEN, count 3, claimed 3, live 1 (R171). -/
theorem test_query_block :
    (after (.queryBlock 0#8 1#8) (inFrame active) fun t =>
      t.mgmt.receiver.response == [0#8, 1, 0, 0, 3, 3, 1, 0]) = true := by decide +kernel

/-- READ COUNTER of id 10 is BAD ARG (R180). -/
theorem test_read_counter :
    (after (.readCounter 10#8) (inFrame active) fun t =>
      t.mgmt.receiver.response == [2#8]) = true := by decide +kernel

/-- CLEAR COUNTERS sets all ten to 0 (R180). -/
theorem test_clear_counters :
    (after .clearCounters (inFrame (active.bump .hostReads)) fun t =>
      t.counter .hostReads == 0#32) = true := by decide +kernel

/-- The eighth bit of the byte 01h takes IDENTIFY (R163, R164). -/
theorem test_sck_rising_edge :
    (after (.sckRisingEdge true) (inByte [false, false, false, false, false, false, false]) fun t =>
      t.mgmt.receiver.state == .response && t.sdo == some false) = true := by decide +kernel

/-! ## Operations: programs and erases cut short, and the slot of a new attempt -/

/-- A loss in halfword 0 of the block manager's FRESH leaves BLANK or a damaged code, never FRESH (R87). -/
theorem test_fresh_cut_in_service :
    [0xFFFF#16, 0x0500#16 ||| 0x7F#16, 0x055F#16].map (fun free =>
      (cutHalf .descriptor (CodeField.cut .descriptor .descriptor false 0x057F#16) 0xFFFF#16 0x057F#16 free).low) =
      [0xFF#8, 0xFF#8, 0x5F#8] := by decide +kernel

/-- A loss in halfword 0 of a format's FRESH may leave FFh, 7Fh or a damaged code (R181), 5Fh here. -/
theorem test_fresh_cut :
    [0xFFFF#16, 0x0500#16 ||| 0x7F#16, 0x055F#16].map (fun free =>
      (cutHalf .descriptor (CodeField.cut .descriptor .volume false 0x057F#16) 0xFFFF#16 0x057F#16 free).low) =
      [0xFF#8, 0x7F#8, 0x5F#8] := by decide +kernel

/-- A loss during IN USE leaves FRESH or a damaged code, never IN USE (R22). -/
theorem test_in_use_cut :
    [0xFFFF#16, 0x053F#16, 0x051F#16].map (fun free =>
      (cutHalf .descriptor (CodeField.cut .descriptor .mover false 0x053F#16) 0x057F#16 0x053F#16 free).low) =
      [0x7F#8, 0x7F#8, 0x1F#8] := by decide +kernel

/-- A loss during VALID leaves CLAIMED or a damaged code, never VALID (R71, row 2). -/
theorem test_valid_cut :
    [0xFFFF#16, 0x3008#16, 0x1008#16].map (fun free =>
      cutHalf .entry (CodeField.cut .entry .mover false 0x3008#16) 0x7008#16 0x3008#16 free) =
      [0x7008#16, 0x7008#16, 0x1008#16] := by decide +kernel

/-- A repair of a CLAIMED entry cut by a reset leaves STALE or a damaged code (R140). -/
theorem test_repair_cut :
    [0xFFFF#16, 0x3008#16, 0x5008#16].map (fun free =>
      cutHalf .entry (CodeField.cut .entry .volume false 0x0008#16) 0x7008#16 0x0008#16 free) =
      [0x0008#16, 0x0008#16, 0x5008#16] := by decide +kernel

/-- The format mark cut short is not the mark (R147). -/
theorem test_mark_cut :
    [0xFFFF#16, 0x4C57#16, 0x4CFF#16].map (fun free =>
      cutHalf .formatMark (CodeField.cut .formatMark .volume true 0x4C57#16) 0xFFFF#16 0x4C57#16 free) =
      [0xFFFF#16, 0xFFFF#16, 0x4CFF#16] := by decide +kernel

/-- A valid record of a two-bank part with this L. -/
def recordOf (pages : Nat) : VolumeRecord :=
  { mark := 0x4C57#16, revision := 1, banks := 2, pages := pages, serial := 3 }

/-- A cut erase of A0 leaves the previous volume, or no valid record, but never another volume (R150, row 2). -/
theorem test_volume_record_cut :
    (recordOf 256).mayBecome (recordOf 256) = true ∧
    (recordOf 256).mayBecome { recordOf 256 with mark := 0xFFFF#16 } = true ∧
    (recordOf 256).mayBecome (recordOf 768) = false ∧
    { recordOf 256 with mark := 0x4C17#16 }.mayBecome (recordOf 256) = false := by decide +kernel

/-- A new attempt that waits for the IN USE program has no new slot yet (R47). -/
theorem test_new_attempt_has_no_slot :
    (match (seekSlot (commitAt .staleNew)
        { committing .staleNew with blocks := { active.blocks with openBlock := none } }).mover.activity with
     | .running r => r.phase == .awaitInUse && r.newSlot == none
     | _ => false) = true := by decide +kernel

/-! ## Witnesses: for each statement with hypotheses, states and operands that meet them, clause by clause -/

/-- The address of halfword 0 of a page. -/
def at0 (page : Nat) : BitVec 22 := BitVec.ofNat 22 (256 * page)

theorem witness_IdleStepPassesOneMicrosecond : State.reset.pending = [] := by decide

theorem witness_StepKeepsInvariant :
    active.Inv ∧ ∃ t, step (active.withPending [.pfailAsserted]) = .next t := ⟨by unfold State.Inv; decide, _, rfl⟩

theorem witness_StepKeepsCommitQueue : (committing .valid).QueueInv ∧ closed.QueueInv := by
  refine ⟨⟨by decide, by decide, ?_⟩, ⟨by decide, by decide, ?_⟩⟩
  · intro r i p h k
    cases h
    cases k
    decide
  · intro r i p h k
    cases h

theorem witness_ArraysParametersAndMaskAreFramed :
    (∃ t, exec .flush (inFrame active) = .next t) ∧ mayTouchArrays .flush = false ∧ mayTouchParams .flush = false ∧
      mayTouchAlertMask .flush = false := ⟨⟨_, rfl⟩, by decide⟩

/-- A format's work with A0's erase requested and two descriptors read on each bank, one of them RETIRED. -/
def volumeErasingWork (abandoned : Bool) : FormatWork :=
  { pages := 256, banks := .two, stage := .erasingVolume
    a := { phase := .readDone, known := [(1, (false, some 3)), (2, (true, some 9))], made := [] }
    b := { phase := .readDone, known := [(64, (true, some 1)), (65, (true, none))], made := [] }
    abandoned := abandoned }

/-- The erase of A0 over a valid record, in a format. -/
def volumeErasing : State :=
  { formatting .erasingVolume .readDone false with
    engine := .format (volumeErasingWork false)
    flashA := ((Flash.erased.writeHalf (headerOf 0) 0 0x4C57#16).writeHalf (headerOf 0) 1 0x0201#16).writeHalf
      (headerOf 0) 2 256#16
    bankA := { BankCtl.reset with
      state := .suspending, context := some { eraseOf .volumeEngine with block := 0 }, suspendTimer := some 5 } }

/-- The erase of A2 in step 3 of a format. -/
def blockErasing : State :=
  { formatting .blocks (.erasing 16777215 [2, 3]) false with
    bankA := { BankCtl.reset with
      state := .suspending, context := some (eraseOf .volumeEngine), suspendTimer := some 5 } }

/-- Bank A programs halfword 0 of slot 4 of A1 while the erase of A2 is suspended. -/
def cut : State :=
  { busy .mover validMark (.program { block := 1, slot := 4 } 0 0x1234#16) .suspended active with
    bankA := { (busy .mover validMark (.program { block := 1, slot := 4 } 0 0x1234#16) .suspended active).bankA with
      context := some (eraseOf .blockManager) } }

theorem cut_erases (index : Nat) (h : index ≠ 2) : ¬ cut.erases .a index := by
  rintro ⟨other, c, hc, -, hi⟩
  cases other
  · cases hc; exact h hi.symm
  · cases hc

theorem witness_PinResetCutsFlashWorkShort :
    (∃ t, exec (.powerOn .two) cut = .next t) ∧ (∃ t, exec (.resetAsserted .one) cut = .next t) ∧
      (¬ cut.erases .a (196608 / 65536) ∧ ∀ c act slot h v, (cut.bank .a).active = some { cls := c, act := act } →
        act.writes slot h v → 196608 ≠ slot.addr (2 * h.val) ∧ 196608 ≠ slot.addr (2 * h.val + 1)) ∧
      (∃ c act slot h v, (cut.bank .a).active = some { cls := c, act := act } ∧ act.writes slot h v ∧
        ¬ cut.erases .a (BlockRef.index slot.block)) ∧
      (∃ k, volumeErasing.bankA.context = some k ∧ k.block = 0 ∧ volumeErasing.bankA.active = none ∧
        volumeErasing.flashA.volume.mountable = true ∧ volumeErasing.memoryWf = true) := by
  refine ⟨⟨_, rfl⟩, ⟨_, rfl⟩, ⟨cut_erases _ (by decide), ?_⟩,
    ⟨.mover, _, { block := 1, slot := 4 }, 0, 0x1234#16, rfl, Or.inl rfl, cut_erases _ (by decide)⟩,
    ⟨_, rfl, by decide +kernel⟩⟩
  intro c act slot h v ha hw
  cases ha
  rcases hw with hw | hw
  · cases hw; decide
  · cases hw

/-- RESET asserted with a read strobe asserted. -/
def strobed : State := State.reset.withStrobes (.read (at0 5) true false)

theorem witness_ResetReleaseBeginsTheMount :
    (State.reset.port.state = .inReset ∧ State.reset.pins.strobes = .none ∧ State.reset.service.strap = .two) ∧
    (strobed.port.state = .inReset ∧ strobed.pins.strobes = .read (at0 5) true false ∧
      strobed.service.state = .mounting) ∧
    (let s := State.reset.withStrobes (.write (at0 5) true false 0x1234#16)
     s.port.state = .inReset ∧ s.pins.strobes = .write (at0 5) true false 0x1234#16 ∧ s.service.state = .mounting) ∧
    (let s := State.reset.withStrobes (.both (at0 5) true false)
     s.port.state = .inReset ∧ s.pins.strobes = .both (at0 5) true false) ∧
    idleReset.port.state ≠ .inReset := by decide

theorem witness_InternalResetLeavesResetValues :
    active.pins.banks = .two ∧ ({ active with pins := { active.pins with banks := .one } } : State).pins.banks = .one ∧
    ((holding readCycle active).port.state = .holding ∧ (holding readCycle active).port.cycle = some readCycle) ∧
    (done active).port.state ≠ .holding ∧
    (¬ cut.erases .a (196608 / 65536) ∧ ∀ c act slot h v, (cut.bank .a).active = some { cls := c, act := act } →
      act.writes slot h v → 196608 ≠ slot.addr (2 * h.val) ∧ 196608 ≠ slot.addr (2 * h.val + 1)) :=
  ⟨by decide, by decide, by decide, by decide, witness_PinResetCutsFlashWorkShort.2.2.1⟩

theorem witness_ArrivalsAreTakenInIdle :
    (holding readCycle active).port.state = .holding ∧ (done active).port.state = .done ∧
      State.reset.port.state = .inReset ∧ active.port.state = .idle := by decide

theorem witness_ArrivalsWithoutAVolume :
    (idleReset.port.state = .idle ∧ idleReset.service.state = .mounting) ∧
    (unformatted.port.state = .idle ∧ unformatted.service.state = .unformatted) ∧
    ((formatting .reading .notStarted false).port.state = .idle ∧
      (formatting .reading .notStarted false).service.state = .formatting) ∧
    ((drained (some .unformatted) unformatted).port.state = .idle ∧
      (drained (some .unformatted) unformatted).service.state = .drained ∧
      (drained (some .unformatted) unformatted).drain.returnState ≠ some .active) := by decide

theorem witness_RangeFaultsPagesBeyondCapacity :
    (active.port.state = .idle ∧ active.volumeMounted = true ∧ active.capacity ≤ pageOf (at0 256)) ∧
    ((drained (some .active) active).port.state = .idle ∧ (drained (some .active) active).volumeMounted = true ∧
      (drained (some .active) active).capacity ≤ pageOf (at0 16383)) := by decide

/-- `active` with the latch set. -/
def latched : State := addCause .capacity active

theorem witness_WritesThatStageNothing :
    (latched.inRange (at0 255) ∧ latched.service.latch.isSet = true) ∧
    ((drained (some .active) active).inRange (at0 0) ∧ (drained (some .active) active).service.state ≠ .active) ∧
    (active.inRange (at0 255) ∧ active.service.state = .active ∧ active.service.latch.isSet = false) := by
  unfold State.inRange; decide

/-- `gathering` with bytes 0 and 1 staged. -/
def staged2 : State := active.setEntry 0 { entryOf .gathering 5 0 with staged := [(0, 0x11#8), (1, 0x22#8)] }

theorem witness_ReadsThatNeedNoBank :
    (active.inRange (at0 255) ∧ active.mapped (pageOf (at0 255)) = none) ∧
    (staged2.inRange (at0 5) ∧ (staged2.forward (pageOf (at0 5)) (offsetOf (at0 5))).isSome = true ∧
      (staged2.forward (pageOf (at0 5)) (offsetOf (at0 5) + 1)).isSome = true) := by
  unfold State.inRange; decide

theorem witness_ForwardingTakesTheNewestEntry :
    ((gathering.entry 0).state = .gathering ∧ (gathering.entry 0).supplies 5 0 = some 0x11#8 ∧
      ∀ j, (gathering.entry j).state = .gathering → (gathering.entry j).page = some 5 → j = 0) ∧
    ((∀ j, (closed.entry j).state = .gathering → (closed.entry j).supplies 5 0 = none) ∧
      closed.staging.queue = [] ++ 1 :: [] ∧ (closed.entry 1).supplies 5 0 = some 0x11#8) ∧
    ((∀ j, ((committing .valid).entry j).state = .gathering → ((committing .valid).entry j).supplies 5 0 = none) ∧
      (∀ j ∈ (committing .valid).staging.queue, ((committing .valid).entry j).supplies 5 0 = none) ∧
      ((committing .valid).entry 1).state = .committing ∧
      ((committing .valid).entry 1).supplies 5 0 = some 0x11#8 ∧
      ∀ j, (((committing .valid).entry j).state = .committing ∨ ((committing .valid).entry j).state = .stuck) →
        j = 1) ∧
    (∀ j, ((active.entry j).state = .committing ∨ (active.entry j).state = .stuck) →
      (active.entry j).supplies 5 0 = none) := by decide

/-- `active` with this erase on bank A. -/
def eraseAt (st : BankState) (c : EraseContext) : State :=
  { active with bankA := { BankCtl.reset with state := st, context := some c } }

theorem witness_ReadsAreHandedToTheirBank :
    active.inRange (at0 5) ∧ active.mapped (pageOf (at0 5)) = some { slot := { block := 1, slot := 2 }, version := 7 } ∧
    (active.bank (SlotRef.bank { block := 1, slot := 2 })).hostRead = none ∧
    ((active.forward (pageOf (at0 5)) (offsetOf (at0 5))).isSome &&
      (active.forward (pageOf (at0 5)) (offsetOf (at0 5) + 1)).isSome) = false ∧
    (active.bank (SlotRef.bank { block := 1, slot := 2 })).state = .idle ∧
    (active.bank (SlotRef.bank { block := 1, slot := 2 })).active = none ∧
    (∀ quantum limit, (let s := eraseAt .erase { eraseOf .blockManager with quantumTimer := quantum, suspendLimit := limit }
     s.inRange (at0 5) ∧ s.mapped (pageOf (at0 5)) = some { slot := { block := 1, slot := 2 }, version := 7 } ∧
     s.bankA.hostRead = none ∧ s.bankA.state = .erase ∧ s.bankA.active = none ∧
     s.bankA.context = some { eraseOf .blockManager with quantumTimer := quantum, suspendLimit := limit })) := by
  refine ⟨?_, by decide, by decide, by decide, by decide, by decide, ?_⟩
  · unfold State.inRange; decide
  · intro quantum limit
    refine ⟨?_, rfl, rfl, rfl, rfl, rfl⟩
    show active.inRange (at0 5)
    unfold State.inRange; decide

theorem witness_HostReadDataReturns :
    (((holding readCycle (reading false)).bank .a).active =
        some { cls := .host, act := .read { block := 1, slot := 2 } 0 2 } ∧
      ((holding readCycle (reading false)).bank .a).hostRead =
        some { slot := { block := 1, slot := 2 }, offset := 0, withdrawn := false } ∧
      readCycle.wait = .bank ∧ readCycle.handed = true ∧ readCycle.slot = some { block := 1, slot := 2 } ∧
      SlotRef.bank { block := 1, slot := 2 } = .a) ∧
    (((reading true).bank .a).active = some { cls := .host, act := .read { block := 1, slot := 2 } 0 2 } ∧
      ((reading true).bank .a).hostRead =
        some { slot := { block := 1, slot := 2 }, offset := 0, withdrawn := true } ∧
      (reading true).waiting .bank = none) := by decide

/-- `gathering` with every byte but that of offset 511 staged, of page 255. -/
def nearlyFull : State :=
  active.setEntry 7 { entryOf .gathering 255 0 with staged := (List.range 511).map fun i => (i, 0#8) }

theorem witness_WritesMergeIntoTheGatheringEntry :
    (gathering.takesWrite (at0 5) true false ∧ gathering.gatheringFor (pageOf (at0 5)) = some 0) ∧
    (nearlyFull.takesWrite 0x00FFFF#22 false true ∧ nearlyFull.gatheringFor (pageOf 0x00FFFF#22) = some 7) ∧
    ((setParam 1 0 gathering).takesWrite (at0 5) true true ∧
      (setParam 1 0 gathering).gatheringFor (pageOf (at0 5)) = some 0) := by
  unfold State.takesWrite; decide +kernel

theorem witness_WritesOpenTheLowestEmptyEntry :
    (active.takesWrite (at0 255) true true ∧ active.gatheringFor (pageOf (at0 255)) = none ∧
      (active.entry 0).state = .empty ∧ ∀ j, j < 0 → (active.entry j).state ≠ .empty) ∧
    (((filled .closed).setEntry 7 Entry.blank).takesWrite (at0 0) true false ∧
      ((filled .closed).setEntry 7 Entry.blank).gatheringFor (pageOf (at0 0)) = none ∧
      (((filled .closed).setEntry 7 Entry.blank).entry 7).state = .empty ∧
      ∀ j, j < 7 → (((filled .closed).setEntry 7 Entry.blank).entry j).state ≠ .empty) := by
  unfold State.takesWrite; decide +kernel

theorem witness_WritesAreHeldWhenTheBufferIsFull :
    ((filled .closed).takesWrite (at0 5) true true ∧ (filled .closed).gatheringFor (pageOf (at0 5)) = none ∧
      (∀ j, ((filled .closed).entry j).state ≠ .empty) ∧ ∀ j, ((filled .closed).entry j).state ≠ .gathering) ∧
    ((filled .gathering).takesWrite (at0 5) true true ∧ (filled .gathering).gatheringFor (pageOf (at0 5)) = none ∧
      (∀ j, ((filled .gathering).entry j).state ≠ .empty) ∧ ((filled .gathering).entry 0).state = .gathering ∧
      ∀ j, ((filled .gathering).entry j).state = .gathering → j ≠ 0 →
        1 ≤ (((filled .gathering).entry j).openSeq - ((filled .gathering).entry 0).openSeq).toNat ∧
          (((filled .gathering).entry j).openSeq - ((filled .gathering).entry 0).openSeq).toNat ≤ 2147483647) := by
  unfold State.takesWrite; decide +kernel

theorem witness_StrobesWithdrawnEndTheCycle :
    (done active).port.state = .done ∧
    ((holding heldWrite active).port.state = .holding ∧ (holding heldWrite active).port.cycle = some heldWrite ∧
      heldWrite.wait ≠ .bank) ∧
    ((holding readCycle (reading false)).port.state = .holding ∧
      (holding readCycle (reading false)).port.cycle = some readCycle ∧ readCycle.wait = .bank ∧
      readCycle.handed = true ∧ readCycle.slot = some { block := 1, slot := 2 } ∧
      ((holding readCycle (reading false)).bank (SlotRef.bank { block := 1, slot := 2 })).hostRead =
        some { slot := { block := 1, slot := 2 }, offset := 0, withdrawn := false }) := by decide

theorem witness_HoldExpiryFaultsTheCycle :
    ((holding heldWrite active).port.state = .holding ∧ (holding heldWrite active).port.cycle = some heldWrite ∧
      heldWrite.wait ≠ .bank) ∧
    ((holding readCycle (reading false)).port.state = .holding ∧
      (holding readCycle (reading false)).port.cycle = some readCycle ∧ readCycle.wait = .bank ∧
      readCycle.handed = true ∧ readCycle.slot = some { block := 1, slot := 2 } ∧
      ((holding readCycle (reading false)).bank (SlotRef.bank { block := 1, slot := 2 })).hostRead =
        some { slot := { block := 1, slot := 2 }, offset := 0, withdrawn := false }) ∧
    (done active).port.state ≠ .holding := by decide

theorem witness_TimerExpiryClosesTheEntry :
    ((gathering.entry 0).state = .gathering ∧ (gathering.entry 0).idle ≠ none ∧ (gathering.entry 0).age ≠ none) ∧
    (closed.entry 1).idle = none ∧ (closed.entry 1).age = none := by decide

theorem witness_ProgramsEndByTheirVerify :
    (((busy .mover validMark (.program (headerOf 64) 9 0x3008#16) .program active).bank .a).active =
      some { cls := .mover, act := .program (headerOf 64) 9 0x3008#16 }) ∧
    (∀ c slot h v, (active.bank .a).active ≠ some { cls := c, act := .program slot h v }) ∧
    (validVerify.bank .b).active = some { cls := .mover, act := .verify (headerOf 64) 9 0x3008#16 } :=
  ⟨by decide, fun _ _ _ _ h => (by cases h), by decide⟩

theorem witness_ValidProgramMovesThePage :
    validVerify.mover.activity = .running (commitAt .valid) ∧ (commitAt .valid).phase = .valid ∧
    (commitAt .valid).newSlot = some { block := 64, slot := 4 } ∧
    (validVerify.bank .b).active = some { cls := .mover, act := .verify (headerOf 64) 9 0x3008#16 } ∧
    (validVerify.bank .b).mover = some { op := validMark, moment := 0, begun := true } ∧
    validMark = .mark { block := 64, slot := 4 } codeValid ∧
    ((validVerify.flash .b).half (headerOf 64) 9 &&& 0x3008#16) = 0x3008#16 ∧
    (validVerify.record 64).isSome = true ∧
    ((commitAt .valid).source = some { slot := { block := 1, slot := 2 }, version := 7 } ∧
      (validVerify.record 1).isSome = true ∧ (1 : BlockRef) ≠ 64) := by decide

theorem witness_FailedAttemptMarksTheNewSlotStale :
    validVerify.mover.activity = .running (commitAt .valid) ∧ (commitAt .valid).phase = .valid ∧
    (commitAt .valid).newSlot = some { block := 64, slot := 4 } ∧
    (validVerify.bank .b).active = some { cls := .mover, act := .verify (headerOf 64) 9 0x3008#16 } ∧
    (validVerify.bank .b).mover = some { op := validMark, moment := 0, begun := true } ∧
    (∀ b g step, validMark ≠ .descriptor b g step) ∧
    (0x3009#16 : HalfWord) ≠ 0x3008#16 :=
  ⟨by decide, by decide, by decide, by decide, by decide, fun _ _ _ h => (by cases h), by decide⟩

/-- The FRESH program of A2 with count 10, at its first halfword. -/
def freshOp : ReqOp := .descriptor 2 (.fresh 10) (.write 1 0#16 [(0, 0x0A7F#16)])

theorem witness_DescriptorProgramsEndWithTheStateByte :
    ¬ (0x12#8 = 0xFF#8 ∧ 0xFF#8 = 0xFF#8 ∧ 0xFF#8 = 0xFF#8) ∧
    (let s := busy .descriptor freshOp (.verify (headerOf 2) 1 0#16) .program active
     (s.bank .a).active = some { cls := .descriptor, act := .verify (headerOf 2) 1 0#16 } ∧
     (s.bank .a).slot .descriptor = some { op := freshOp, moment := 0, begun := true } ∧
     freshOp = .descriptor 2 (.fresh 10) (.write 1 0#16 ((0, 0x0A7F#16) :: [])) ∧
     ((s.flash .a).half (headerOf 2) 1 &&& 0#16) = 0#16) := by decide

/-- The erases of the volume engine in `volumeErasing` and `blockErasing`. -/
def volumeEngineErases : Prop :=
  (∃ c, (volumeErasing.bank .a).context = some c ∧ c.requester = .volumeEngine ∧ c.block = 0 ∧
    BlockRef.bank c.block = .a ∧ (volumeErasing.bank .a).eraseRunning = true ∧
    (volumeErasing.bank .a).state = .suspending ∧ volumeErasing.engine = .format (volumeErasingWork false) ∧
    (volumeErasingWork false).abandoned = false ∧ (volumeErasingWork false).stage = .erasingVolume) ∧
  (∃ c w, (blockErasing.bank .a).context = some c ∧ c.requester = .volumeEngine ∧ c.block = 2 ∧
    BlockRef.bank c.block = .a ∧ (blockErasing.bank .a).eraseRunning = true ∧
    (blockErasing.bank .a).state = .suspending ∧ blockErasing.engine = .format w ∧ w.abandoned = false ∧
    w.stage = .blocks ∧ (w.bank .a).phase = .erasing 16777215 [2, 3])

theorem volumeEngineErases_holds : volumeEngineErases :=
  ⟨⟨_, rfl, rfl, rfl, by decide, by decide, rfl, rfl, rfl, rfl⟩,
    ⟨_, _, rfl, rfl, rfl, by decide, by decide, rfl, rfl, rfl, rfl, rfl⟩⟩

theorem witness_EraseCompleteIsTaken :
    (((erasing .erase active).bank .a).eraseRunning = true ∧ ((erasing .suspending active).bank .a).eraseRunning = true ∧
      ((erasing .erase active).bank .a).context = some (eraseOf .blockManager) ∧
      (eraseOf .blockManager).requester = .blockManager ∧ BlockRef.bank (eraseOf .blockManager).block = .a ∧
      ((erasing .erase active).record (eraseOf .blockManager).block).isSome = true) ∧
    volumeEngineErases ∧
    (∀ k p, p ∈ ((volumeErasingWork false).bank k).known → BlockRef.bank p.1 = k) ∧
    (((volumeErasingWork false).a.known.filter fun q => !q.2.1).map Prod.fst = [1] ∧
      ∀ q ∈ (volumeErasingWork false).b.known, q.2.1 = true) ∧
    ({ volumeErasing with engine := .format (volumeErasingWork true) } : State).engine =
      .format (volumeErasingWork true) ∧
    (active.bank .a).eraseRunning = false := by
  refine ⟨by decide, volumeEngineErases_holds, ?_, by decide, rfl, by decide⟩
  intro k
  cases k <;> decide

theorem witness_SuspendsAreDecidedAndAcknowledged :
    (((erasing .erase active).bank .a).state = .erase ∧ ((erasing .erase active).bank .a).active = none ∧
      ((erasing .erase active).bank .a).context = some (eraseOf .blockManager)) ∧
    (((erasing .suspending active).bank .a).state = .suspending ∧
      ((erasing .suspending active).bank .a).context = some (eraseOf .blockManager) ∧
      ((erasing .suspending active).bank .a).state ≠ .erase) ∧
    ((erasing .erase active).bank .a).state ≠ .suspending := by decide

theorem witness_ProgramTimeoutFailsTheProgram :
    ((cut.bank .a).active = some { cls := .mover, act := .program { block := 1, slot := 4 } 0 0x1234#16 } ∧
      (cut.bank .a).state = .suspended) ∧
    (((busy .mover validMark (.program (headerOf 64) 9 0x3008#16) .program active).bank .a).active =
        some { cls := .mover, act := .program (headerOf 64) 9 0x3008#16 } ∧
      ((busy .mover validMark (.program (headerOf 64) 9 0x3008#16) .program active).bank .a).state ≠ .suspended) ∧
    (∀ c slot h v, (active.bank .a).active ≠ some { cls := c, act := .program slot h v }) :=
  ⟨by decide, by decide, fun _ _ _ _ h => (by cases h)⟩

theorem witness_EraseTimeoutsFailTheErase :
    (((erasing .erase active).bank .a).context = some (eraseOf .blockManager) ∧
      BlockRef.bank (eraseOf .blockManager).block = .a ∧ ((erasing .erase active).bank .a).eraseRunning = true) ∧
    (((erasing .suspending active).bank .a).context = some (eraseOf .blockManager) ∧
      ((erasing .suspending active).bank .a).state = .suspending) ∧
    ((eraseOf .blockManager).requester = .blockManager ∧
      ((erasing .erase active).record (eraseOf .blockManager).block).isSome = true) ∧
    volumeEngineErases ∧
    (active.bank .a).eraseRunning = false ∧ (active.bank .a).state ≠ .suspending :=
  ⟨by decide, by decide, by decide, volumeEngineErases_holds, by decide, by decide⟩

theorem witness_BankResetEnds :
    (((resetting .a active).bank .a).state = .resetting ∧ (resetting .a active).engine = .idle) ∧
    (∃ w, (resetting .a (mounting .resetting .resetting false)).engine = .mount w ∧
      (w.bank .a).phase = .resetting ∧ (w.bank .b).phase = .resetting ∧ w.valid = false ∧
      ((resetting .a (mounting .resetting .resetting false)).bank .a).state = .resetting) ∧
    (∃ w, (resetting .b (mounting .scanned .resetting true)).engine = .mount w ∧ (w.bank .b).phase = .resetting ∧
      w.valid = true ∧ (resetting .b (mounting .scanned .resetting true)).service.strap = .two ∧
      ((resetting .b (mounting .scanned .resetting true)).bank .b).state = .resetting) ∧
    (active.bank .a).state ≠ .resetting :=
  ⟨by decide, ⟨_, rfl, by decide⟩, ⟨_, rfl, by decide⟩, by decide⟩

/-- Bank A of `active` with these waiting requests. -/
def waiting (h : Option HostRead) (m v : Option Request) (e : Option EraseRequest) (st : BankState) : State :=
  { active with bankA := { BankCtl.reset with state := st, hostRead := h, mover := m, volume := v, erase := e } }

/-- A read request handed over at a moment. -/
def readAt (moment : Nat) : Option Request :=
  some { op := .readSlot { block := 1, slot := 2 }, moment := moment, begun := false }

/-- A program request handed over at a moment. -/
def programAt (moment : Nat) : Option Request := some { op := validMark, moment := moment, begun := false }

/-- Bank A SUSPENDED, under power hold or not, with these waiting requests. -/
def suspendedWith (hold : Bool) (h : Option HostRead) (m v : Option Request) : State :=
  { active with bankA := { BankCtl.reset with
      state := .suspended, hostRead := h, mover := m, volume := v
      context := some { eraseOf .blockManager with powerHold := hold } } }

theorem witness_BanksChooseInOrder :
    ((waiting (some { slot := { block := 1, slot := 2 }, offset := 0, withdrawn := false }) none none none .idle).bank
      .a).hostRead.isSome = true ∧
    (let k := (waiting none (readAt 1) (readAt 0) none .idle).bank .a
     k.active = none ∧ k.state = .idle ∧ k.hostRead = none ∧
     k.slot .volume = some { op := .readSlot { block := 1, slot := 2 }, moment := 0, begun := false } ∧
     ∀ c' ∈ [ReqClass.host, .mover, .descriptor], ∀ q', k.slot c' = some q' → 0 < q'.moment) ∧
    (let k := (waiting none none none (some { block := 2, requester := .blockManager }) .idle).bank .a
     k.hostRead = none ∧ (∀ c ∈ [ReqClass.host, .mover, .descriptor, .volume], k.slot c = none) ∧
     k.erase = some { block := 2, requester := .blockManager }) ∧
    ((active.bank .a).state = .idle ∧ (active.bank .a).erase = none) ∧
    (((erasing .suspended active).bank .a).state = .suspended ∧
      ((erasing .suspended active).bank .a).active = none ∧
      ((erasing .suspended active).bank .a).context = some (eraseOf .blockManager) ∧
      (eraseOf .blockManager).powerHold = false ∧ ((erasing .suspended active).bank .a).readWaits = false) ∧
    (let k := (suspendedWith true (some { slot := { block := 1, slot := 2 }, offset := 0, withdrawn := false }) none none).bankA
     k.active = none ∧ k.state = .suspended ∧ k.hostRead.isSome = true) ∧
    (let k := (suspendedWith false none (programAt 0) (readAt 1)).bankA
     k.hostRead = none ∧ k.slot .volume = readAt 1 ∧ (ReqOp.readSlot { block := 1, slot := 2 }).isRead = true ∧
     ∀ q', k.slot .mover = some q' → q'.op.isRead = false) ∧
    (let k := (suspendedWith true none (programAt 0) (readAt 1)).bankA
     k.hostRead = none ∧ k.slot .mover = programAt 0 ∧ validMark.isProgram = true ∧
     ∀ q', k.slot .volume = some q' → 0 < q'.moment) ∧
    (let k := (suspendedWith true none none none).bankA
     k.hostRead = none ∧ ∀ c ∈ [ReqClass.host, .mover, .descriptor, .volume], k.slot c = none) ∧
    (let k := (eraseAt .erase (eraseOf .blockManager)).bankA
     k.active = none ∧ k.state = .erase ∧ k.context = some (eraseOf .blockManager) ∧
     (eraseOf .blockManager).quantumTimer = none ∧
     (eraseOf .blockManager).suspendCount < (eraseOf .blockManager).suspendLimit) ∧
    ((resetting .a active).bankA.active = none ∧ (resetting .a active).bankA.state = .resetting) := by
  refine ⟨by decide, ⟨by decide, by decide, by decide, by decide, ?_⟩, by decide, by decide, by decide, by decide,
    ⟨by decide, by decide, by decide, ?_⟩, ⟨by decide, by decide, by decide, ?_⟩, by decide, by decide, by decide⟩
  · intro c' hc q' hq
    simp only [List.mem_cons, List.not_mem_nil, or_false] at hc
    rcases hc with rfl | rfl | rfl
    · cases hq
    · cases hq; decide
    · cases hq
  · intro q' hq; cases hq; decide
  · intro q' hq; cases hq; decide

theorem witness_PfailAssertedStartsTheDrain :
    (active.pins.pfail = false ∧ active.service.state = .active) ∧
    ((holding heldWrite active).port.state = .holding ∧ (holding heldWrite active).port.cycle = some heldWrite ∧
      heldWrite.wait = .staging) ∧
    ((setReturn (some .active) (active.setService .draining)).pins.pfail = false ∧
      (setReturn (some .active) (active.setService .draining)).service.state = .draining) ∧
    (unformatted.pins.pfail = false ∧ unformatted.service.state = .unformatted ∧ unformatted.drain.line = false) ∧
    (idleReset.pins.pfail = false ∧ idleReset.service.state = .mounting) ∧
    ((formatting .blocks .finished false).pins.pfail = false ∧
      (formatting .blocks .finished false).service.state = .formatting ∧
      (formatting .blocks .finished false).engine = .format (formatWork .blocks .finished false)) ∧
    (((erasing .erase active).bank .a).context = some (eraseOf .blockManager) ∧
      ((erasing .erase active).bank .a).state = .erase ∧ (erasing .erase active).pins.pfail = false) ∧
    (((erasing .suspended active).bank .a).context = some (eraseOf .blockManager) ∧
      ((erasing .suspended active).bank .a).state = .suspended) := by decide

theorem witness_PfailReleasedEndsTheDrain :
    (let s := withPfail true (drained (some .active) active)
     s.pins.pfail = true ∧ s.service.state = .drained ∧ s.drain.restartPending = false ∧
     s.drain.returnState = some .active) ∧
    (let s := withPfail true (drained (some .unformatted) unformatted)
     s.pins.pfail = true ∧ s.service.state = .drained ∧ s.drain.restartPending = false ∧
     s.drain.returnState = some .unformatted) ∧
    (let s := setRestart (withPfail true (drained (some .active) active))
     s.pins.pfail = true ∧ s.service.state = .drained ∧ s.drain.restartPending = true) ∧
    ((withPfail true idleReset).pins.pfail = true ∧ (withPfail true idleReset).service.state = .mounting) ∧
    (let s := withPfail true (setReturn (some .active) (active.setService .draining))
     s.pins.pfail = true ∧ s.service.state = .draining ∧ s.drain.restartPending = false ∧ s.commitsAtRest = true ∧
     (setRestart s).drain.restartPending = true ∧ (setRestart s).drainDone = true ∧
     ((setRestart s).allBanks fun k => !k.eraseInProgress) = true) ∧
    (let s := withPfail true (setReturn (some .active) ((erasing .suspended (committing .valid)).setService .draining))
     s.pins.pfail = true ∧ s.service.state = .draining ∧ s.moverIdle = false ∧
     (s.allBanks fun k => !k.eraseInProgress) = false) ∧
    (let s := withPfail true (erasing .suspended active)
     s.pins.pfail = true ∧ s.drain.restartPending = false ∧ (s.bank .a).context = some (eraseOf .blockManager) ∧
     (s.bank .a).state = .suspended) := by decide

/-- `active` in DRAINING with return state ACTIVE. -/
def draining : State := setReturn (some .active) (active.setService .draining)

theorem witness_DrainFinishFollowsItsRow :
    ((withPfail true draining).drainReady = true ∧ (withPfail true draining).pins.pfail = true) ∧
    ((setRestart draining).drainReady = true ∧ (setRestart draining).pins.pfail = false ∧
      (setRestart draining).drain.restartPending = true) ∧
    (draining.drainReady = true ∧ draining.pins.pfail = false ∧ draining.drain.restartPending = false) ∧
    active.drainReady = false := by decide

/-- A mount that reads the volume record. -/
def recordReading : State :=
  let s := mounting .record .waiting false
  { s with bankA := { BankCtl.reset with
      state := .read
      volume := some { op := .readSlot { block := 0, slot := 0 }, moment := 0, begun := true }
      active := some { cls := .volume, act := .read { block := 0, slot := 0 } 0 512 } } }

/-- A valid record: mark 4C57h, revision 1, two banks, L = 256, serial 3. -/
def goodRecord : ReadAnswer := .other [0x57#8, 0x4C#8, 1, 2, 0x00, 0x01, 3, 0]

theorem witness_VolumeRecordDecidesTheMount :
    (∃ w, recordReading.engine = .mount w ∧ w.a.phase = .record) ∧
    recordReading.bankA.volume = some { op := .readSlot { block := 0, slot := 0 }, moment := 0, begun := true } ∧
    recordReading.bankA.active = some { cls := .volume, act := .read { block := 0, slot := 0 } 0 512 } ∧
    (let bytes := answerBytes goodRecord recordReading.flashA { block := 0, slot := 0 } 0 512
     halfAt bytes 0 = 0x4C57#16 ∧ byteAt bytes 2 = 1#8 ∧ recordReading.service.strap = .two ∧ byteAt bytes 3 = 2#8 ∧
     256 ≤ (halfAt bytes 4).toNat ∧ (halfAt bytes 4).toNat ≤ 15621) ∧
    halfAt (answerBytes .array recordReading.flashA { block := 0, slot := 0 } 0 512) 0 ≠ 0x4C57#16 :=
  ⟨⟨_, rfl, rfl⟩, by decide, by decide, by decide +kernel, by decide +kernel⟩

/-- A mount whose scans have ended with one bad entry on each bank. -/
def mountWithBad : State :=
  idleReset.setEngine (.mount
    { a := { MountBank.start .scanned with bad := [{ block := 1, slot := 9 }] }
      b := { MountBank.start .scanned with bad := [{ block := 64, slot := 1 }] }
      valid := true, repaired := false, condemned := [] })

theorem witness_MountChoosesTheNewestCandidates :
    (∃ w, (mounting .scanned .scanned true).engine = .mount w ∧ w.valid = true ∧ w.a.phase = .scanned ∧
      w.b.phase = .scanned) ∧
    (∃ w, (mounting .scanned .absent true).engine = .mount w ∧ w.b.phase = .absent) ∧
    (∃ w, mountWithBad.engine = .mount w ∧ w.valid = true ∧ w.a.phase = .scanned ∧ w.b.phase = .scanned ∧
      ∀ bk, sortByKey SlotRef.scanKey (((chooseCandidates (w.a.candidates ++ w.b.candidates)).2 ++ w.a.bad ++
        w.b.bad).filter fun x => x.bank == bk) =
          (match bk with | .a => [{ block := 1, slot := 9 }] | .b => [{ block := 64, slot := 1 }])) ∧
    active.choiceReady = false :=
  ⟨⟨_, rfl, by decide⟩, ⟨_, rfl, by decide⟩, ⟨_, rfl, by decide, by decide, by decide, fun bk => by cases bk <;> decide⟩,
    by decide⟩

/-- A mount at its end that found six FRESH blocks and a RETIRED one, with this L. -/
def mountedWith (pages : Nat) : State :=
  { idleReset.setEngine (.mount
      { a := { MountBank.start .ended with
          found := ((List.range 6).map fun i =>
            { block := Fin.ofNat 128 (i + 1), cls := .fresh, count := some 1, claimed := 0 }) ++
            [{ block := 7, cls := .retired, count := some 1, claimed := 0 }] }
        b := MountBank.start .absent, valid := true, repaired := false, condemned := [] }) with
    service := { idleReset.service with pages := some pages } }

theorem witness_MountEndEntersService :
    (∃ w, (mounting .ended .absent true).engine = .mount w ∧ w.valid = true ∧ w.a.phase = .ended ∧
      w.b.phase = .absent ∧ (mounting .ended .absent true).pins.pfail = false) ∧
    (∃ w, (withPfail true (mounting .ended .ended true)).engine = .mount w ∧ w.valid = true ∧ w.b.phase = .ended ∧
      (withPfail true (mounting .ended .ended true)).pins.pfail = true) ∧
    (∃ w, (mountedWith 382).engine = .mount w ∧ w.valid = true ∧ w.a.phase = .ended ∧ w.b.phase = .absent ∧
      127 * (((w.a.found ++ w.b.found).filter fun r => r.cls != .retired).length : Int) -
        ((mountedWith 382).capacity : Int) = 380) ∧
    (∃ w, (mountedWith 381).engine = .mount w ∧ w.valid = true ∧ w.a.phase = .ended ∧ w.b.phase = .absent ∧
      127 * (((w.a.found ++ w.b.found).filter fun r => r.cls != .retired).length : Int) -
        ((mountedWith 381).capacity : Int) = 381) ∧
    active.mountReady = false :=
  ⟨⟨_, rfl, by decide⟩, ⟨_, rfl, by decide⟩, ⟨_, rfl, by decide⟩, ⟨_, rfl, by decide⟩, by decide⟩

/-- A format of a one-bank part that has made no request yet. -/
def oneBankFormat : State :=
  (idleReset.setService .formatting).setEngine (.format
    { formatWork .reading .notStarted false with
      banks := .one, b := { phase := .absent, known := [], made := [] } })

theorem witness_FormatStepsBegin :
    (∃ w, (formatting .reading .notStarted false).engine = .format w ∧ w.abandoned = false ∧
      (∀ bk ∈ [BankId.a, .b], (w.bank bk).phase = .notStarted ∧
        ((formatting .reading .notStarted false).bank bk).eraseInProgress = false ∧
        ((formatting .reading .notStarted false).bank bk).erase = none ∧
        ((formatting .reading .notStarted false).bank bk).volume = none) ∧ w.banks = .two) ∧
    (∃ w, oneBankFormat.engine = .format w ∧ w.abandoned = false ∧ (w.bank .a).phase = .notStarted ∧ w.banks = .one ∧
      (oneBankFormat.bank .a).eraseInProgress = false ∧ (oneBankFormat.bank .a).erase = none ∧
      (oneBankFormat.bank .a).volume = none) ∧
    active.formatStartReady .a = false ∧
    (∃ w, (formatting .blocks .finished false).engine = .format w ∧ w.abandoned = false ∧ w.stage = .blocks ∧
      w.a.phase = .finished ∧ w.b.phase = .finished) ∧
    active.recordReady = false :=
  ⟨⟨_, rfl, by decide⟩, ⟨_, rfl, by decide⟩, by decide, ⟨_, rfl, by decide⟩, by decide⟩

theorem witness_AbandonedFormatEnds :
    ((withPfail true (formatting .blocks .finished true)).formatAbandoned = true ∧
      (withPfail true (formatting .blocks .finished true)).pins.pfail = true ∧
      (withPfail true (formatting .blocks .finished true)).banksAtRest = true) ∧
    (active.formatAbandoned && active.pins.pfail && active.banksAtRest) = false ∧
    ((formatting .blocks .finished true).formatAbandoned = true ∧
      (formatting .blocks .finished true).pins.pfail = false ∧
      ((formatting .blocks .finished true).allBanks fun k => !k.eraseInProgress) = true) ∧
    (active.formatAbandoned && !active.pins.pfail && active.allBanks fun k => !k.eraseInProgress) = false := by decide

theorem witness_FramesStartAndEnd :
    (active.pins.ssel = false ∧ active.port.state ≠ .inReset ∧ active.mgmt.receiver.state = .idle) ∧
    (State.reset.pins.ssel = false ∧ State.reset.port.state = .inReset) ∧
    (let r : Receiver := { Receiver.reset with state := .command, bits := [true] }
     (active.setReceiver r).mgmt.receiver.state = .command ∧ (active.setReceiver r).mgmt.receiver.bits ≠ []) ∧
    ((inFrame active).mgmt.receiver.state = .command ∧ (inFrame active).mgmt.receiver.bits = []) := by decide

theorem witness_ReadingCommandsAnswer :
    active.mgmt.receiver.state = .idle ∧
    (active.setReceiver { Receiver.reset with state := .response }).mgmt.receiver.state = .response ∧
    ((inByte [true, false, true, false, true, false]).mgmt.receiver.state = .command ∧
      (inByte [true, false, true, false, true, false]).mgmt.receiver.bits.length < 7) ∧
    ((inFrame active).frameAllows 0x00#8 [] ∧ (inFrame active).frameAllows 0x10#8 [] ∧
      (inFrame active).frameAllows 0xFF#8 []) ∧
    ((inFrame active).frameAllows 0x01#8 [] ∧ (inFrame active).frameAllows 0x03#8 []) ∧
    ((inFrame active).frameAllows 0x06#8 [10#8] ∧ (inFrame active).mgmt.params.get 10 = some 4000) ∧
    ((inFrame active).frameAllows 0x06#8 [0#8] ∧ (inFrame active).frameAllows 0x06#8 [11#8]) ∧
    ((inFrame active).frameAllows 0x0E#8 [9#8] ∧ Counter.programFailures.id.val = 9) ∧
    (inFrame active).frameAllows 0x0E#8 [10#8] := by unfold State.frameAllows; decide

theorem witness_ClockedFramesEqualTheirCommands :
    commandFrame (.writeParam 2#8 3#16) = some (0x07#8, [2#8, 0#8, 3#8]) ∧
    (inFrame active).mgmt.receiver.state = .command ∧ (inFrame active).mgmt.receiver.bits = [] ∧
    (inFrame active).mgmt.receiver.cmd = none ∧ (inFrame active).mgmt.receiver.args = [] := by decide

theorem witness_StatusAndQueriesAnswer :
    (inFrame active).frameAllows 0x02#8 [] ∧
    ((inFrame unformatted).frameAllows 0x0C#8 (argWord 0#16) ∧ (inFrame unformatted).volumeMounted = false) ∧
    ((inFrame active).frameAllows 0x0C#8 (argWord 256#16) ∧ (inFrame active).volumeMounted = true ∧
      (inFrame active).capacity ≤ (256#16).toNat) ∧
    ((inFrame active).frameAllows 0x0C#8 (argWord 5#16) ∧ (5#16).toNat < (inFrame active).capacity ∧
      ((inFrame active).mapped (5#16).toNat).isSome = true) ∧
    ((inFrame active).frameAllows 0x0C#8 (argWord 255#16) ∧ (255#16).toNat < (inFrame active).capacity ∧
      (inFrame active).mapped (255#16).toNat = none) ∧
    ((inFrame (formatting .reading .notStarted false)).frameAllows 0x0D#8 [1#8, 63#8] ∧
      (inFrame (formatting .reading .notStarted false)).service.state = .formatting) ∧
    ((inFrame active).frameAllows 0x0D#8 [0#8, 0#8] ∧ (inFrame active).frameAllows 0x0D#8 [2#8, 1#8] ∧
      (inFrame active).frameAllows 0x0D#8 [0#8, 64#8] ∧ (inFrame active).service.state ≠ .formatting) ∧
    ((inFrame active).frameAllows 0x0D#8 [0#8, 1#8] ∧ ((inFrame active).record 1).isSome = true) ∧
    ((inFrame active).frameAllows 0x0D#8 [1#8, 63#8] ∧ (127 : BlockRef).val = 64 * (1#8).toNat + (63#8).toNat ∧
      (inFrame active).service.strap = .two ∧ (inFrame active).record 127 = none) := by
  unfold State.frameAllows; decide

theorem witness_ClearingCommandsAct :
    (inFrame active).frameAllows 0x04#8 (argWord 0xFFFF#16) ∧ (inFrame active).frameAllows 0x05#8 (argWord 0xFFFF#16) ∧
    (inFrame active).frameAllows 0x0F#8 [] := by unfold State.frameAllows; decide

theorem witness_WriteParamSetsOneParameter :
    (inFrame active).frameAllows 0x07#8 (5#8 :: argWord 3#16) ∧
    (inFrame active).frameAllows 0x07#8 (10#8 :: argWord 10000#16) ∧
    (inFrame active).frameAllows 0x07#8 (10#8 :: argWord 10001#16) ∧
    (inFrame active).frameAllows 0x07#8 (0#8 :: argWord 1#16) := by unfold State.frameAllows; decide

theorem witness_FlushMarksAndCloses :
    ((inFrame gathering).frameAllows 0x08#8 [] ∧ (inFrame gathering).service.state = .active) ∧
    ((inFrame unformatted).frameAllows 0x08#8 [] ∧ (inFrame unformatted).service.state ≠ .active) := by
  unfold State.frameAllows; decide

/-- `active` with entry 7 STUCK. -/
def stuck : State := addCause .commitStuck (active.setEntry 7 (entryOf .stuck 5 0))

theorem witness_ResumeCommitRequeuesTheStuckEntry :
    ((inFrame stuck).frameAllows 0x09#8 [] ∧ (inFrame stuck).service.state = .active ∧
      (inFrame stuck).service.latch.commitStuck = true ∧ ((inFrame stuck).entry 7).state = .stuck ∧
      ∀ j, ((inFrame stuck).entry j).state = .stuck → j = 7) ∧
    ((inFrame active).frameAllows 0x09#8 [] ∧ (inFrame active).service.latch.commitStuck = false) := by
  unfold State.frameAllows; decide

theorem witness_FormatBegins :
    ((inFrame unformatted).frameAllows 0x0A#8 (argWord 255#16) ∧
      (inFrame unformatted).frameAllows 0x0A#8 (argWord 256#16) ∧
      (inFrame unformatted).frameAllows 0x0A#8 (argWord 15621#16) ∧
      (inFrame unformatted).frameAllows 0x0A#8 (argWord 15622#16)) ∧
    (inFrame unformatted).service.state = .unformatted ∧
    ((inFrame active).service.state = .active ∧ (∀ i, ((inFrame active).entry i).state = .empty) ∧
      (inFrame active).mover.activity = .idle) ∧
    ((inFrame gathering).frameAllows 0x0A#8 (argWord 256#16) ∧ (inFrame gathering).service.state ≠ .unformatted ∧
      ((inFrame gathering).entry 0).state ≠ .empty) := by unfold State.frameAllows; decide

theorem witness_RestartFollowsTheServiceState :
    (∀ s ∈ [inFrame active, inFrame (holding heldWrite active), inFrame unformatted, inFrame (drained (some .active) active), inFrame draining,
        inFrame idleReset], s.mgmt.receiver.receiving = true ∧
      s.mgmt.receiver.sampled.isPrefixOf (bitsOf 0x0B#8 ++ ([] : List Byte).flatMap bitsOf) = true) ∧
    (inFrame active).service.state = .active ∧ (inFrame active).waiting .staging = none ∧
    (inFrame (holding heldWrite active)).service.state = .active ∧
    (inFrame (holding heldWrite active)).waiting .staging = some heldWrite ∧
    (inFrame unformatted).service.state = .unformatted ∧
    (inFrame (drained (some .active) active)).service.state = .drained ∧
    (inFrame draining).service.state = .draining ∧ (inFrame idleReset).service.state = .mounting := by
  refine ⟨?_, by decide⟩
  intro s hs
  simp only [List.mem_cons, List.not_mem_nil, or_false] at hs
  rcases hs with rfl | rfl | rfl | rfl | rfl | rfl <;> decide

/-- `s` with A2 the victim, with live pages and condemned or not. -/
def withVictim (condemned : Bool) (live : Nat) (s : State) : State :=
  let s1 := s.modifyRecord 2 fun r => { r with state := .victim, condemned := condemned, live := live }
  { s1 with blocks := { s1.blocks with victim := some 2, reclaim := .space, scanPos := 1 } }

theorem witness_ArbiterGrantsByTheFirstCase :
    (active.commitWaits = false ∧ active.reclaimWaits = false) ∧
    (let s := withVictim true 1 closed
     s.reclaimWaits = true ∧ s.blocks.victim = some 2 ∧ s.isCondemned 2 = true ∧ s.commitWaits = true) ∧
    (closed.commitWaits = true ∧ closed.reclaimWaits = false ∧ closed.moverIdle = true ∧ closed.granted ≠ .none) ∧
    ((withVictim false 1 active).commitWaits = false ∧ (withVictim false 1 active).reclaimWaits = true) ∧
    (∀ g ∈ [LastGrant.commit, .move, .none],
      (noteGrant g (withVictim false 1 closed)).commitWaits = true ∧
      (noteGrant g (withVictim false 1 closed)).reclaimWaits = true ∧
      (noteGrant g (withVictim false 1 closed)).isCondemned 2 = false ∧
      (noteGrant g (withVictim false 1 closed)).mover.lastGrant = g) ∧
    (active.moverIdle = true ∧ active.granted = .none) ∧ (committing .valid).moverIdle = false := by decide

theorem witness_SilentCommitsProgramNothing :
    (commitAt .fill).kind = .commit 1 false ∧
    (∀ o b, (o, b) ∈ ((fillBuffer (List.replicate 512 0x11#8) (committing .fill)).entry 1).staged →
      b = (fillBuffer (List.replicate 512 0x11#8) (committing .fill)).mover.buffer.getD o 0xFF#8) ∧
    (fillBuffer (List.replicate 512 0x11#8) (committing .fill)).waiting .staging = none := by
  refine ⟨rfl, ?_, by decide⟩
  intro o b h
  have h2 : (o, b) = (0, 0x11#8) := by
    have : ((fillBuffer (List.replicate 512 0x11#8) (committing .fill)).entry 1).staged = [(0, 0x11#8)] := by decide
    rw [this] at h
    simpa using h
  cases h2
  decide +kernel

/-- `active` with A2 FULL, holding this many live pages, condemned or not, after this many erases. -/
def withFull (live count : Nat) (condemned : Bool) : State :=
  active.modifyRecord 2 fun r =>
    { r with state := .full, live := live, claimed := 127, eraseCount := count, condemned := condemned }

theorem witness_TriggersChooseTheVictim :
    (active.setService .draining).service.state ≠ .active ∧
    (active.service.state = .active ∧ active.blocks.victim = none ∧ active.service.latch.reclaimHalted = false) ∧
    ((withFull 5 9 true).fullBlocks.map (fun p => p.2.condemned) = [true] ∧
      (withFull 5 9 true).triggered = some (.condemned, 2)) ∧
    (((withFull 126 9 false).recordsIn .free).length ≤ (withFull 126 9 false).mgmt.params.reclaimThreshold ∧
      (∀ q ∈ (withFull 126 9 false).fullBlocks, q.2.condemned = false ∧ q.2.live < 127) ∧
      (withFull 126 9 false).fullBlocks.length = 1 ∧
      ∀ q ∈ (withFull 126 9 false).blocks.records, q.2.eraseCount ≤ 16777215) ∧
    (let s := (setParam 5 1 (withFull 127 1 false)).modifyRecord 3 fun r => { r with eraseCount := 2000 }
     s.mgmt.params.reclaimThreshold < (s.recordsIn .free).length ∧ s.fullBlocks.length = 1 ∧
     (∀ q ∈ s.fullBlocks, q.2.condemned = false ∧ q.2.eraseCount = 1) ∧
     (∃ m ∈ s.blocks.records, m.2.state ≠ .retired ∧ s.mgmt.params.wearLimit < m.2.eraseCount - 1)) ∧
    (let s := withFull 127 9 false
     s.fullBlocks.length = 1 ∧ (∀ q ∈ s.fullBlocks, q.2.condemned = false ∧ 127 ≤ q.2.live) ∧
     (s.recordsIn .free).length ≤ s.mgmt.params.reclaimThreshold) ∧
    (let s := (setParam 5 1 (withFull 127 1 false)).modifyRecord 3 fun r => { r with eraseCount := 1025 }
     s.fullBlocks.length = 1 ∧ (∀ q ∈ s.fullBlocks, q.2.condemned = false) ∧
     s.mgmt.params.reclaimThreshold < (s.recordsIn .free).length ∧
     ∀ p ∈ s.fullBlocks, ∀ m ∈ s.blocks.records, m.2.state ≠ .retired →
       m.2.eraseCount - p.2.eraseCount ≤ s.mgmt.params.wearLimit) := by decide

theorem witness_SlotRequestsTakeInOrder :
    (active.blocks.openBlock = some (1, 4) ∧ (active.record 1).isSome = true) ∧
    (let s := { active with blocks := { active.blocks with openBlock := some (1, 127) } }
     s.blocks.openBlock = some (1, 127) ∧ (s.record 1).isSome = true ∧ s.service.state = .active) ∧
    (let s := { active with blocks := { active.blocks with openBlock := none } }
     let r : BlockRecord := { state := .free, eraseCount := 4, claimed := 0, live := 0, condemned := false }
     s.blocks.openBlock = none ∧ (3, r) ∈ s.recordsIn .free ∧ s.record 3 = some r ∧
     3 ≤ (s.recordsIn .free).length ∧ (∀ p ∈ s.blocks.records, p.2.state ≠ .erasing) ∧
     ∀ p ∈ s.recordsIn .free, p ≠ (3, r) →
       r.eraseCount < p.2.eraseCount ∨ (r.eraseCount = p.2.eraseCount ∧ 3 < p.1)) ∧
    (let s := { active with blocks := { active.blocks with
        openBlock := none
        records := [(1, { state := .erasing, eraseCount := 1, claimed := 0, live := 0, condemned := false }),
                    (2, { state := .free, eraseCount := 1, claimed := 0, live := 0, condemned := false })] } }
     s.recordsIn .free = [(2, { state := .free, eraseCount := 1, claimed := 0, live := 0, condemned := false })] ∧
     s.bankErasing (BlockRef.bank 2) = true) ∧
    (let s := { bare with blocks := { active.blocks with openBlock := none, records := active.blocks.records.take 3 } }
     s.blocks.openBlock = none ∧ s.service.state ≠ .draining ∧ (s.recordsIn .free).length = 2) ∧
    (bare.blocks.openBlock = none ∧ bare.recordsIn .free = []) := by decide

theorem witness_LatchTakesItsFirstCause :
    (latched.service.latch.isSet = true ∧ latched.service.latch.has .capacity = true) ∧
    (active.service.latch.isSet = false ∧ active.service.state = .active) ∧
    (holding heldWrite active).waiting .staging = some heldWrite ∧
    (draining.service.latch.isSet = false ∧ draining.service.state ≠ .active) := by decide

end Sys2Proof.Tests
end

section
/-! PROOF. Read forwarding (R42): what the staging buffer supplies for one byte, from the order of its entries. -/

namespace Sys2Proof.Machine

/-- A search of a list finds the value of `i` when `i` is the only member that has one. -/
theorem findSome?_eq_some_of_unique {α β : Type} {f : α → Option β} {l : List α} {i : α} {b : β} (hmem : i ∈ l)
    (hval : f i = some b) (huniq : ∀ j ∈ l, (f j).isSome = true → j = i) : l.findSome? f = some b := by
  cases hfound : l.findSome? f with
  | none =>
    have hnone : f i = none := List.findSome?_eq_none_iff.mp hfound i hmem
    simp [hval] at hnone
  | some c =>
    obtain ⟨j, hj, hc⟩ := List.exists_of_findSome?_eq_some hfound
    obtain rfl : j = i := huniq j hj (by simp [hc])
    exact hc.symm.trans hval

/-! ## The entries in some state -/

theorem mem_entryNumbers (i : Fin 8) : i ∈ entryNumbers := by
  revert i; decide

/-- An entry that supplies a byte for a page is an entry for that page. -/
theorem page_of_supplies_isSome {e : Entry} {page o : Nat} (h : (e.supplies page o).isSome = true) :
    e.page = some page := by
  by_contra hne
  simp [Entry.supplies, hne] at h

/-- The byte supplied by the lowest-numbered entry that has a property and covers the offset. -/
def State.suppliedBy (s : State) (p : Entry → Bool) (page o : Nat) : Option Byte :=
  (entryNumbers.filter fun i => p (s.entry i)).findSome? fun i => (s.entry i).supplies page o

theorem suppliedBy_eq_none {s : State} {p : Entry → Bool} {page o : Nat}
    (h : ∀ j, p (s.entry j) = true → (s.entry j).supplies page o = none) : s.suppliedBy p page o = none :=
  List.findSome?_eq_none_iff.mpr fun j hj => h j (List.mem_filter.mp hj).2

theorem suppliedBy_eq_some_of_unique {s : State} {p : Entry → Bool} {page o : Nat} {i : Fin 8} {b : Byte}
    (hp : p (s.entry i) = true) (hb : (s.entry i).supplies page o = some b)
    (huniq : ∀ j, p (s.entry j) = true → (s.entry j).page = some page → j = i) : s.suppliedBy p page o = some b :=
  findSome?_eq_some_of_unique (List.mem_filter.mpr ⟨mem_entryNumbers i, hp⟩) hb fun j hj hsome =>
    huniq j (List.mem_filter.mp hj).2 (page_of_supplies_isSome hsome)

/-! ## The commit queue -/

/-- The byte supplied by the CLOSED entry that covers the offset and closed last. -/
def State.suppliedByQueue (s : State) (page o : Nat) : Option Byte :=
  s.staging.queue.reverse.findSome? fun i => (s.entry i).supplies page o

theorem suppliedByQueue_eq_none {s : State} {page o : Nat}
    (h : ∀ j ∈ s.staging.queue, (s.entry j).supplies page o = none) : s.suppliedByQueue page o = none :=
  List.findSome?_eq_none_iff.mpr fun j hj => h j (List.mem_reverse.mp hj)

theorem suppliedByQueue_eq_some {s : State} {page o : Nat} {i : Fin 8} {older newer : List (Fin 8)} {b : Byte}
    (hq : s.staging.queue = older ++ i :: newer) (hb : (s.entry i).supplies page o = some b)
    (hnewer : ∀ j ∈ newer, (s.entry j).supplies page o = none) : s.suppliedByQueue page o = some b := by
  have hrev : s.staging.queue.reverse = newer.reverse ++ i :: older.reverse := by simp [hq]
  exact List.findSome?_eq_some_iff.mpr
    ⟨newer.reverse, i, older.reverse, hrev, hb, fun j hj => hnewer j (List.mem_reverse.mp hj)⟩

/-! ## The three groups of R42, newest first -/

/-- The entry still takes merges of its page (R26). -/
def Entry.isGathering (e : Entry) : Bool := e.state == .gathering

/-- The entry is at the end of its stay: its commit runs, or it waits for RESUME COMMIT (R37). -/
def Entry.isCommittingOrStuck (e : Entry) : Bool := e.state == .committing || e.state == .stuck

@[simp] theorem isGathering_iff (e : Entry) : e.isGathering = true ↔ e.state = .gathering := by
  simp [Entry.isGathering]

@[simp] theorem isCommittingOrStuck_iff (e : Entry) :
    e.isCommittingOrStuck = true ↔ e.state = .committing ∨ e.state = .stuck := by
  simp [Entry.isCommittingOrStuck]

/-- Each group supplies the byte only when no newer group does. -/
theorem forward_eq_or (s : State) (page o : Nat) :
    s.forward page o = ((s.suppliedBy Entry.isGathering page o).or (s.suppliedByQueue page o)).or
      (s.suppliedBy Entry.isCommittingOrStuck page o) := by
  simp only [State.forward, State.forwardOrder, List.findSome?_append]
  rfl

/-- Settles O17: the three groups of `forward_eq_or` are taken one after the other, each on the assumption that the
newer ones supply nothing. -/
theorem forwardingTakesTheNewestEntry : Obligations.ForwardingTakesTheNewestEntry := by
  intro s page o b
  refine ⟨fun i hi hb huniq => ?gathering, fun hgathering => ?older⟩
  case gathering =>
    have hsome : s.suppliedBy Entry.isGathering page o = some b :=
      suppliedBy_eq_some_of_unique (by simpa using hi) hb (by simpa using huniq)
    simp [forward_eq_or, hsome]
  case older =>
    have hnoGathering : s.suppliedBy Entry.isGathering page o = none :=
      suppliedBy_eq_none (by simpa using hgathering)
    refine ⟨fun i older newer hq hb hnewer => ?closed, fun hqueue => ?committing⟩
    case closed =>
      simp [forward_eq_or, hnoGathering, suppliedByQueue_eq_some hq hb hnewer]
    case committing =>
      have hnoQueue : s.suppliedByQueue page o = none := suppliedByQueue_eq_none hqueue
      refine ⟨fun i hi hb huniq => ?supplied, fun hcommitting => ?notSupplied⟩
      case supplied =>
        have hsome : s.suppliedBy Entry.isCommittingOrStuck page o = some b :=
          suppliedBy_eq_some_of_unique (by simpa using hi) hb fun j hj _ => huniq j (by simpa using hj)
        simp [forward_eq_or, hnoGathering, hnoQueue, hsome]
      case notSupplied =>
        have hnone : s.suppliedBy Entry.isCommittingOrStuck page o = none :=
          suppliedBy_eq_none fun j hj => hcommitting j (by simpa using hj)
        simp [forward_eq_or, hnoGathering, hnoQueue, hnone]

end Sys2Proof.Machine
end

section
/-! SUPPORT. Which operations keep the mover's state: those of the bank controllers, the staging buffer and the block
manager's triggers keep all of it (R47); a slot request may clear reserve hold (R52); a step of a commit or a scan may
also set the activity, the buffer and reserve hold, and never the last grant (R50). -/

namespace Sys2Proof.Machine

/-! ## Bank controllers and staging buffer -/

@[simp] theorem handOver_mover (s : State) (bk : BankId) (c : ReqClass) (op : ReqOp) :
    (handOver bk c op s).mover = s.mover := by simp [handOver]

@[simp] theorem handErase_mover (s : State) (r : EraseRequest) : (handErase r s).mover = s.mover := by
  simp [handErase]

@[simp] theorem completeCycle_mover (s : State) (fault : Bool) (data : Option HalfWord) :
    (completeCycle fault data s).mover = s.mover := by
  unfold completeCycle; split <;> rfl

@[simp] theorem refuseHeld_mover (s : State) : (refuseHeld s).mover = s.mover := by
  unfold refuseHeld; split <;> simp [refuseWrite]

@[simp] theorem closeEntry_mover (s : State) (i : Fin 8) : (closeEntry i s).mover = s.mover := by
  simp only [closeEntry]; split <;> simp

@[simp] theorem closeAll_mover (s : State) : (closeAll s).mover = s.mover :=
  List.foldlRecOn (motive := fun t => t.mover = s.mover) s.gatheringInOrder _ rfl
    fun t ht i _ => (closeEntry_mover t i).trans ht

@[simp] theorem openEntry_mover (s : State) (i : Fin 8) (page : Nat) : (openEntry i page s).mover = s.mover := rfl

@[simp] theorem mergeWrite_mover (s : State) (i : Fin 8) (o : Nat) (lower upper : Bool) (data : HalfWord) :
    (mergeWrite i o lower upper data s).mover = s.mover := by
  simp only [mergeWrite]; split <;> simp

theorem absorbWrite_mover {s t : State} {c : Cycle} (h : absorbWrite c s = some t) : t.mover = s.mover := by
  simp only [absorbWrite] at h
  split at h
  case h_1 => obtain rfl := Option.some.inj h; simp
  case h_2 =>
    split at h
    · obtain rfl := Option.some.inj h; simp
    · cases h

@[simp] theorem retryHeld_mover (s : State) : (retryHeld s).mover = s.mover := by
  unfold retryHeld
  split
  case h_1 c _ =>
    cases h : absorbWrite c s with
    | none => rfl
    | some t => exact absorbWrite_mover h
  case h_2 => rfl

@[simp] theorem releaseEntry_mover (s : State) (i : Fin 8) : (releaseEntry i s).mover = s.mover := by
  simp only [releaseEntry, retryHeld_mover]; split <;> simp

@[simp] theorem startEntry_mover (s : State) (i : Fin 8) : (startEntry i s).mover = s.mover := rfl

@[simp] theorem deferEntry_mover (s : State) (i : Fin 8) : (deferEntry i s).mover = s.mover := rfl

@[simp] theorem addCause_mover (s : State) (c : Cause) : (addCause c s).mover = s.mover := by
  simp only [addCause]
  split
  case isTrue => rfl
  case isFalse => split <;> simp

/-! ## Block manager -/

@[simp] theorem serveBank_mover (s : State) (bk : BankId) : (serveBank bk s).mover = s.mover := by
  simp only [serveBank]
  split
  case isTrue => rfl
  case isFalse => split <;> simp

@[simp] theorem joinErase_mover (s : State) (b : BlockRef) : (joinErase b s).mover = s.mover := by
  simp [joinErase, serveErases]

@[simp] theorem evaluateTriggers_mover (s : State) : (evaluateTriggers s).mover = s.mover := by
  unfold evaluateTriggers
  split
  case isTrue => split <;> rfl
  case isFalse => rfl

@[simp] theorem finishVictim_mover (s : State) : (finishVictim s).mover = s.mover := by
  unfold finishVictim; split <;> simp

@[simp] theorem takeSlot_mover (s : State) (b : BlockRef) (n : Nat) : (takeSlot b n s).mover = s.mover := by
  simp only [takeSlot]; split <;> simp

@[simp] theorem takeBlock_mover (s : State) (b : BlockRef) (r : BlockRecord) :
    (takeBlock b r s).mover = { s.mover with reserveHold := false } := by
  simp [takeBlock]

/-- The state a slot request leaves has the last grant of before. -/
theorem slotRequest_lastGrant (s : State) (q : Requester) :
    (slotRequest q s).2.mover.lastGrant = s.mover.lastGrant := by
  unfold slotRequest
  split
  case h_1 => simp
  case h_2 =>
    split
    · split <;> simp
    · rfl

/-! ## The steps of a commit and of a scan keep the last grant -/

@[simp] theorem moverAsks_lastGrant (s : State) (r : OpRecord) (p : Phase) (bk : BankId) (op : ReqOp) :
    (moverAsks r p bk op s).mover.lastGrant = s.mover.lastGrant := by simp [moverAsks]

@[simp] theorem endCommit_lastGrant (s : State) (i : Fin 8) (c : Counter) :
    (endCommit i c s).mover.lastGrant = s.mover.lastGrant := by simp [endCommit]

/-- Deferral, STUCK and RECLAIM HALTED: whatever the operation without a slot ends with. -/
@[simp] theorem noSlot_lastGrant (s : State) (r : OpRecord) :
    (noSlot r s).mover.lastGrant = s.mover.lastGrant := by
  unfold noSlot
  split
  case h_1 => split <;> simp [deferCommit, stickCommit]
  case h_2 => simp [haltReclaim]

@[simp] theorem seekSlot_lastGrant (s : State) (r : OpRecord) :
    (seekSlot r s).mover.lastGrant = s.mover.lastGrant := by
  have hrequest := slotRequest_lastGrant s r.requester
  unfold seekSlot
  split <;> (next hanswer => rw [hanswer] at hrequest; simpa [beginWrite] using hrequest)

@[simp] theorem writeInPlace_lastGrant (s : State) (r : OpRecord) (i : Fin 8) (x : SlotRef) (h : Nat) :
    (writeInPlace r i x h s).mover.lastGrant = s.mover.lastGrant := by
  unfold writeInPlace; split <;> simp

@[simp] theorem decideCommit_lastGrant (s : State) (r : OpRecord) (i : Fin 8) :
    (decideCommit r i s).mover.lastGrant = s.mover.lastGrant := by
  unfold decideCommit
  split
  case isTrue => simp
  case isFalse => split <;> simp

@[simp] theorem startCommit_lastGrant (s : State) (i : Fin 8) :
    (startCommit i s).mover.lastGrant = s.mover.lastGrant := by
  simp only [startCommit]
  split
  case h_1 => simp
  case h_2 => simp only [decideCommit_lastGrant, fillBuffer_mover, setActivity_mover, startEntry_mover]

@[simp] theorem scanNext_lastGrant (s : State) : (scanNext s).mover.lastGrant = s.mover.lastGrant := by
  unfold scanNext
  split
  case h_1 => split <;> simp
  case h_2 => simp

end Sys2Proof.Machine
end

section
/-! PROOF. The arbiter (R49 to R51): which source is granted, the note of the grant, and the states without one. -/

namespace Sys2Proof.Machine

/-! ## The source granted -/

theorem victimUrgent_of_record {s : State} {v : BlockRef} {r : BlockRecord} (hv : s.blocks.victim = some v)
    (hr : s.record v = some r) : s.victimUrgent = true ↔ r.condemned = true ∧ 0 < r.live := by
  simp [State.victimUrgent, hv, hr]

theorem granted_of_none_waits {s : State} (hc : s.commitWaits = false) (hm : s.reclaimWaits = false) :
    s.granted = .none := by
  simp [State.granted, hc, hm]

theorem granted_of_only_commit {s : State} (hc : s.commitWaits = true) (hm : s.reclaimWaits = false) :
    s.granted = .commit := by
  simp [State.granted, hc, hm]

theorem granted_of_only_reclaim {s : State} (hc : s.commitWaits = false) (hm : s.reclaimWaits = true) :
    s.granted = .move := by
  simp [State.granted, hc, hm]

theorem granted_of_both {s : State} (hc : s.commitWaits = true) (hm : s.reclaimWaits = true) :
    s.granted = if s.victimUrgent then .move else if s.mover.lastGrant = .commit then .move else .commit := by
  simp [State.granted, hc, hm]

/-- R50, case 1, whether or not the commit source waits. -/
theorem granted_of_urgent {s : State} (hm : s.reclaimWaits = true) (hurgent : s.victimUrgent = true) :
    s.granted = .move := by
  cases hc : s.commitWaits with
  | false => exact granted_of_only_reclaim hc hm
  | true => simp [granted_of_both hc hm, hurgent]

/-- Only a source that waits is granted. -/
theorem commitWaits_of_granted {s : State} (h : s.granted = .commit) : s.commitWaits = true := by
  cases hc : s.commitWaits with
  | true => rfl
  | false =>
    cases hm : s.reclaimWaits with
    | false => simp [granted_of_none_waits hc hm] at h
    | true => simp [granted_of_only_reclaim hc hm] at h

/-- The commit source waits only with a CLOSED entry to commit (R49). -/
theorem exists_queue_of_commitWaits {s : State} (h : s.commitWaits = true) :
    ∃ i rest, s.staging.queue = i :: rest := by
  cases hq : s.staging.queue with
  | nil => simp [State.commitWaits, hq] at h
  | cons i rest => exact ⟨i, rest, rfl⟩

/-! ## The grant made -/

theorem grantOnce_of_commit {s : State} {i : Fin 8} {rest : List (Fin 8)} (hidle : s.moverIdle = true)
    (hg : s.granted = .commit) (hq : s.staging.queue = i :: rest) :
    grantOnce s = startCommit i (noteGrant .commit s) := by
  simp [grantOnce, hidle, hg, hq]

theorem grantOnce_of_move {s : State} (hidle : s.moverIdle = true) (hg : s.granted = .move) :
    grantOnce s = scanNext (noteGrant .move s) := by
  simp [grantOnce, hidle, hg]

/-- The operation granted begins after the note and keeps it. -/
theorem grantOnce_lastGrant {s : State} (hidle : s.moverIdle = true) (hg : s.granted ≠ .none) :
    (grantOnce s).mover.lastGrant = s.granted := by
  cases hgrant : s.granted with
  | none => exact absurd hgrant hg
  | commit =>
    obtain ⟨i, rest, hq⟩ := exists_queue_of_commitWaits (commitWaits_of_granted hgrant)
    simp [grantOnce_of_commit hidle hgrant hq]
  | move => simp [grantOnce_of_move hidle hgrant]

theorem arbitrate_of_busy (n : Nat) {s : State} (h : s.moverIdle = false) : arbitrate n s = s := by
  cases n <;> simp [arbitrate, h]

theorem arbitrate_of_not_granted (n : Nat) {s : State} (h : s.granted = .none) : arbitrate n s = s := by
  cases n <;> simp [arbitrate, h]

/-- Settles O55: the cases of R50 are the equations of `granted`, and `grantOnce` notes the source it grants. -/
theorem arbiterGrantsByTheFirstCase : Obligations.ArbiterGrantsByTheFirstCase := by
  intro s
  refine ⟨granted_of_none_waits, ?urgent, granted_of_only_commit, granted_of_only_reclaim, ?inTurn,
    grantOnce_lastGrant, fun _ hg => ?nothingWaits, fun hbusy => ?busy⟩
  case urgent =>
    intro v r hm hv hr hcondemned hlive
    exact granted_of_urgent hm ((victimUrgent_of_record hv hr).mpr ⟨hcondemned, hlive⟩)
  case inTurn =>
    intro v r hc hm hv hr hnot
    have hcalm : s.victimUrgent ≠ true := fun hurgent => hnot ((victimUrgent_of_record hv hr).mp hurgent)
    refine ⟨fun hlast => ?_, fun hlast => ?_⟩
    · simp [granted_of_both hc hm, hcalm, hlast]
    · rcases hlast with hlast | hlast <;> simp [granted_of_both hc hm, hcalm, hlast]
  case nothingWaits => rw [settle, arbitrate_of_not_granted _ hg]
  case busy => rw [settle, arbitrate_of_busy _ hbusy]

end Sys2Proof.Machine
end

section
/-! PROOF. The hold timer's expiry (R124): the current cycle's bank read is withdrawn (R99) and the cycle completes with
FAULT; the withdrawal touches a bank only and the completion no bank, so they commute. -/

namespace Sys2Proof.Machine

/-! ## The withdrawal of the bank read -/

theorem withdrawHostRead_of_hostRead {s : State} {bk : BankId} {h : HostRead} (hread : (s.bank bk).hostRead = some h) :
    withdrawHostRead bk s = s.setBank bk { s.bank bk with
      hostRead := if (s.bank bk).servingHost then some { h with withdrawn := true } else none } := by
  simp [withdrawHostRead, hread]

theorem withdrawCycleRead_of_handed {c : Cycle} {x : SlotRef} (s : State) (hwait : c.wait = .bank)
    (hhanded : c.handed = true) (hslot : c.slot = some x) :
    withdrawCycleRead c s = withdrawHostRead x.bank s := by
  simp [withdrawCycleRead, hwait, hhanded, hslot]

/-- Only a read handed to its bank is withdrawn there (R99). -/
theorem withdrawCycleRead_of_not_handed {c : Cycle} (s : State) (h : c.wait ≠ .bank ∨ c.handed = false) :
    withdrawCycleRead c s = s := by
  unfold withdrawCycleRead
  split
  case h_1 hwait hhanded _ => simp [hwait, hhanded] at h
  case h_2 => rfl

@[simp] theorem withdrawCycleRead_port (c : Cycle) (s : State) : (withdrawCycleRead c s).port = s.port := by
  unfold withdrawCycleRead
  split
  case h_1 => simp [withdrawHostRead]
  case h_2 => rfl

/-! ## The completion of the cycle -/

theorem completeCycle_of_cycle {s : State} {c : Cycle} (fault : Bool) (data : Option HalfWord)
    (hc : s.port.cycle = some c) : completeCycle fault data s = s.withDone c fault data := by
  simp [completeCycle, State.withDone, hc]

theorem setBank_withDone (s : State) (bk : BankId) (k : BankCtl) (c : Cycle) (fault : Bool) (data : Option HalfWord) :
    (s.setBank bk k).withDone c fault data = (s.withDone c fault data).setBank bk k := by
  cases bk <;> rfl

theorem setBank_setFlag (s : State) (bk : BankId) (k : BankCtl) (f : Flag) :
    (s.setBank bk k).setFlag f = (s.setFlag f).setBank bk k := by
  cases bk <;> rfl

theorem setBank_bump (s : State) (bk : BankId) (k : BankCtl) (n : Counter) :
    (s.setBank bk k).bump n = (s.bump n).setBank bk k := by
  cases bk <;> rfl

/-! ## The expiry -/

/-- The cycle ended by its hold timer (R124): FAULT, FFFFh on the data lines of a read, the flag and the counter. -/
def State.withHoldTimeout (s : State) (c : Cycle) : State :=
  ((s.withDone c true (if c.kind = .read then some 0xFFFF#16 else none)).setFlag .holdTimeout).bump .holdTimeouts

theorem setBank_withHoldTimeout (s : State) (bk : BankId) (k : BankCtl) (c : Cycle) :
    (s.setBank bk k).withHoldTimeout c = (s.withHoldTimeout c).setBank bk k := by
  simp only [State.withHoldTimeout, setBank_withDone, setBank_setFlag, setBank_bump]

theorem expireHold_of_holding {s : State} {c : Cycle} (hstate : s.port.state = .holding)
    (hc : s.port.cycle = some c) : expireHold s = (withdrawCycleRead c s).withHoldTimeout c := by
  have hkept : (withdrawCycleRead c s).port.cycle = some c := by simpa using hc
  simp [expireHold, hstate, hc, completeCycle_of_cycle _ _ hkept, State.withHoldTimeout]

theorem expireHold_of_not_holding {s : State} (hstate : s.port.state ≠ .holding) : expireHold s = s := by
  unfold expireHold
  split
  case h_1 hholding _ => exact absurd hholding hstate
  case h_2 => rfl

theorem exec_holdTimerExpiry (s : State) : exec .holdTimerExpiry s = .next (expireHold s) := rfl

/-- Settles O24: in HOLDING the expiry is `withHoldTimeout` after the withdrawal, which does nothing when no read has
been handed over and otherwise writes one bank, past which `withHoldTimeout` moves. -/
theorem holdExpiryFaultsTheCycle : Obligations.HoldExpiryFaultsTheCycle := by
  intro s
  refine ⟨fun c hstate hc => ⟨fun hnot => ?notHanded, fun x h hwait hhanded hslot hread => ?handed⟩,
    fun hstate => ?notHolding⟩
  case notHanded =>
    rw [exec_holdTimerExpiry, expireHold_of_holding hstate hc, withdrawCycleRead_of_not_handed s hnot]
    rfl
  case handed =>
    rw [exec_holdTimerExpiry, expireHold_of_holding hstate hc, withdrawCycleRead_of_handed s hwait hhanded hslot,
      withdrawHostRead_of_hostRead hread, setBank_withHoldTimeout]
    rfl
  case notHolding => rw [exec_holdTimerExpiry, expireHold_of_not_holding hstate]

end Sys2Proof.Machine
end

section
/-! PROOF. The start and the end of a management frame (R163, R165, R167): `startFrame` by the port and the receiver,
`endFrame` by whether the receiver's frame is discarded. -/

namespace Sys2Proof.Machine

/-! ## The start of a frame -/

/-- SSEL driven to a level. -/
def State.withSsel (s : State) (level : Bool) : State := { s with pins := { s.pins with ssel := level } }

theorem startFrame_of_idle {s : State} (hssel : s.pins.ssel = false) (hport : s.port.state ≠ .inReset)
    (hidle : s.mgmt.receiver.state = .idle) :
    startFrame s = (s.withSsel true).setReceiver { Receiver.reset with state := .command } := by
  simp [startFrame, State.withSsel, hssel, hport, hidle]

theorem startFrame_of_inReset {s : State} (hssel : s.pins.ssel = false) (hport : s.port.state = .inReset) :
    startFrame s = s.withSsel true := by
  simp [startFrame, State.withSsel, hssel, hport]

/-! ## The end of a frame -/

/-- R165: the frames discarded are those that end in a part of a command byte or before their last argument. -/
theorem discards_iff (r : Receiver) :
    r.discards = true ↔ (r.state = .command ∧ r.bits ≠ []) ∨ r.state = .arguments := by
  simp [Receiver.discards]

/-- R165: an empty frame, one in RESPONSE and no frame at all are not discarded. -/
theorem discards_eq_false_iff (r : Receiver) :
    r.discards = false ↔ (r.state = .command ∧ r.bits = []) ∨ r.state = .response ∨ r.state = .idle := by
  rw [← Bool.not_eq_true, discards_iff]
  cases r.state <;> simp

theorem setFlag_setReceiver (s : State) (f : Flag) (r : Receiver) :
    (s.setFlag f).setReceiver r = (s.setReceiver r).setFlag f := rfl

theorem endFrame_of_discards {s : State} (h : s.mgmt.receiver.discards = true) :
    endFrame s = ((s.withSsel false).setReceiver .reset).setFlag .frameError := by
  simp [endFrame, State.withSsel, h, setFlag_setReceiver]

theorem endFrame_of_not_discards {s : State} (h : s.mgmt.receiver.discards = false) :
    endFrame s = (s.withSsel false).setReceiver .reset := by
  simp [endFrame, State.withSsel, h]

theorem sdo_of_idle {s : State} (h : s.mgmt.receiver.state = .idle) : s.sdo = none := by
  simp [State.sdo, h]

theorem exec_frameStart (s : State) : exec .frameStart s = .next (startFrame s) := rfl

theorem exec_frameEnd (s : State) : exec .frameEnd s = .next (endFrame s) := rfl

/-- Settles O45: the receiver's states at the deassertion are parted by `discards`, which alone decides FRAME ERROR. -/
theorem framesStartAndEnd : Obligations.FramesStartAndEnd := by
  intro s
  refine ⟨fun hssel hport hidle => ?starts, fun hssel hport => ?heldInReset, fun hcut => ?discarded,
    fun hwhole => ?notDiscarded, rfl, sdo_of_idle rfl⟩
  case starts => rw [exec_frameStart, startFrame_of_idle hssel hport hidle]; rfl
  case heldInReset => rw [exec_frameStart, startFrame_of_inReset hssel hport]; rfl
  case discarded => rw [exec_frameEnd, endFrame_of_discards ((discards_iff _).mpr hcut)]; rfl
  case notDiscarded => rw [exec_frameEnd, endFrame_of_not_discards ((discards_eq_false_iff _).mpr hwhole)]; rfl

end Sys2Proof.Machine
end

section
/-! SUPPORT. The stores that the invariant of every step speaks of (the arrays, the parameters, the flag bits that hold
no flag), with the alert mask and the queue: what leaves them alone. -/

-- In order: as one text the package would start more threads than memory has stacks for.
set_option Elab.async false

namespace Sys2Proof.Machine

/-- The stores of the invariant, with the alert mask and the waiting commands. -/
structure Stores where
  flashA : Flash
  flashB : Flash
  params : Params
  alertMask : BitVec 16
  noFlag : BitVec 16
  pending : List Instr

/-- Those stores of a state. -/
def State.stores (s : State) : Stores :=
  { flashA := s.flashA, flashB := s.flashB, params := s.mgmt.params, alertMask := s.mgmt.alertMask,
    noFlag := s.mgmt.flags &&& ~~~flagBits, pending := s.pending }

theorem stores_of_base {s t : State} (h : t.base = s.base) : t.stores = s.stores := by
  simp only [State.base, Base.mk.injEq] at h
  obtain ⟨-, hA, hB, hparams, hmask, -, hnoFlag, -, -, hpending⟩ := h
  simp only [State.stores, hA, hB, hparams, hmask, hnoFlag, hpending]

@[simp] theorem pins_stores (s : State) (x : Pins) : ({ s with pins := x } : State).stores = s.stores := rfl

@[simp] theorem setReceiver_stores (s : State) (r : Receiver) : (s.setReceiver r).stores = s.stores := rfl

@[simp] theorem setPfail_stores (s : State) (level : Bool) : (setPfail level s).stores = s.stores := rfl

theorem sameArrays_of_flash {s t : State} (hA : t.flashA = s.flashA) (hB : t.flashB = s.flashB) : SameArrays s t := by
  intro bk a
  cases bk
  · exact congrArg (Flash.byte · a) hA
  · exact congrArg (Flash.byte · a) hB

theorem sameArrays_of_stores {s t : State} (h : t.stores = s.stores) : SameArrays s t :=
  sameArrays_of_flash (congrArg Stores.flashA h) (congrArg Stores.flashB h)

/-! ## The invariant -/

/-- The invariant speaks of the stores alone. -/
theorem inv_of_stores {s t : State} (h : t.stores = s.stores) (hs : s.Inv) : t.Inv := by
  simp only [State.stores, Stores.mk.injEq] at h
  obtain ⟨hA, hB, hparams, -, hnoFlag, -⟩ := h
  simp only [State.Inv, State.memoryWf, State.paramsWf, State.flagsWf, hA, hB, hparams, hnoFlag] at hs ⊢
  exact hs

theorem inv_of_base {s t : State} (h : t.base = s.base) : s.Inv → t.Inv := inv_of_stores (stores_of_base h)

/-- The invariant once an array has changed. -/
theorem inv_of_memoryWf {s t : State} (hmem : s.memoryWf = true → t.memoryWf = true) (hmgmt : t.mgmt = s.mgmt)
    (hs : s.Inv) : t.Inv := by
  obtain ⟨hwf, hparams, hflags⟩ := hs
  refine ⟨hmem hwf, ?_, ?_⟩
  · rwa [State.paramsWf, hmgmt]
  · rwa [State.flagsWf, hmgmt]

/-- What the arrays are does not depend on the blocks around them. -/
theorem memoryWf_congr {s t : State} (hA : t.flashA = s.flashA) (hB : t.flashB = s.flashB)
    (h : s.memoryWf = true) : t.memoryWf = true := by
  rwa [State.memoryWf, hA, hB]

end Sys2Proof.Machine
end

section
/-! SUPPORT. What the operations that reach an array leave alone: each changes the arrays and the count of free values
only. With it, what a pin reset and an internal reset keep, and what they make of the arrays. -/

-- In order: as one text the package would start more threads than memory has stacks for.
set_option Elab.async false

namespace Sys2Proof.Machine

/-! ## The operations on the arrays -/

/-- `t` is `s` but for the arrays and the count of free values. -/
def FlashFrame (s t : State) : Prop :=
  t = { s with flashA := t.flashA, flashB := t.flashB, freeNext := t.freeNext }

theorem FlashFrame.trans {s t u : State} (hst : FlashFrame s t) (htu : FlashFrame t u) : FlashFrame s u := by
  unfold FlashFrame at *
  rw [htu, hst]

theorem setFlash_frame (s : State) (bk : BankId) (f : Flash) : FlashFrame s (s.setFlash bk f) := by
  cases bk <;> rfl

theorem takeFree_frame (s : State) : FlashFrame s s.takeFree := rfl

theorem eraseArray_frame (b : BlockRef) (pass : Bool) (s : State) : FlashFrame s (eraseArray b pass s) := by
  simp only [eraseArray]
  split
  · exact setFlash_frame _ _ _
  · split
    · exact (setFlash_frame _ _ _).trans (takeFree_frame _)
    · exact (setFlash_frame _ _ _).trans (takeFree_frame _)

theorem halfDone_frame (bk : BankId) (c : ReqClass) (timedOut : Bool) (slot : SlotRef) (h : Fin 256) (v : HalfWord)
    (s : State) : FlashFrame s (halfDone bk c timedOut slot h v s) :=
  (setFlash_frame _ _ _).trans (takeFree_frame _)

theorem setHalf_frame (bk : BankId) (slot : SlotRef) (h : Fin 256) (v : HalfWord) (s : State) :
    FlashFrame s (setHalf bk slot h v s) := setFlash_frame _ _ _

theorem interruptProgram_frame (bk : BankId) (s : State) : FlashFrame s (interruptProgram bk s) := by
  unfold interruptProgram
  split
  · exact halfDone_frame ..
  · exact halfDone_frame ..
  · rfl
  · rfl

theorem interruptErase_frame (bk : BankId) (s : State) : FlashFrame s (interruptErase bk s) := by
  unfold interruptErase
  split
  · exact eraseArray_frame ..
  · rfl

theorem interruptBank_frame (bk : BankId) (s : State) : FlashFrame s (interruptBank bk s) :=
  (interruptProgram_frame _ _).trans (interruptErase_frame _ _)

theorem FlashFrame.mgmt {s t : State} (h : FlashFrame s t) : t.mgmt = s.mgmt := by rw [h]

theorem FlashFrame.bank {s t : State} (h : FlashFrame s t) (bk : BankId) : t.bank bk = s.bank bk := by
  rw [h]; cases bk <;> rfl

/-- An array changed canonically keeps the invariant. -/
theorem FlashFrame.inv {s t : State} (h : FlashFrame s t) (hmem : s.memoryWf = true → t.memoryWf = true) :
    s.Inv → t.Inv := inv_of_memoryWf hmem h.mgmt

/-! ## Resets -/

theorem pinReset_inv (banks : Strap) {s : State} (h : s.Inv) : (pinReset banks s).Inv := by
  obtain ⟨hwf, -⟩ := h
  refine ⟨memoryWf_congr rfl rfl (memoryWf_interruptFlash s hwf), ?_, ?_⟩
  · show Params.defaults.inRange = true
    decide
  · show ((0 : BitVec 16) &&& ~~~flagBits == 0#16) = true
    decide

theorem resetBlocks_inv {s : State} (h : s.Inv) : (resetBlocks s).Inv := by
  obtain ⟨hwf, hparams, -⟩ := h
  refine ⟨memoryWf_congr rfl rfl (memoryWf_interruptFlash s hwf), hparams, ?_⟩
  show ((0 : BitVec 16) &&& ~~~flagBits == 0#16) = true
  decide

theorem internalReset_inv {s : State} (h : s.Inv) : (internalReset s).Inv :=
  inv_of_base (beginMount_base _) (resetBlocks_inv h)

/-! ## The parameters, the alert mask and the queue -/

/-- What only pin resets, WRITE PARAM and SET ALERT MASK change, with the waiting commands. -/
structure Settings where
  params : Params
  alertMask : BitVec 16
  pending : List Instr

/-- The parameters, the alert mask and the waiting commands of a state. -/
def State.settings (s : State) : Settings :=
  { params := s.mgmt.params, alertMask := s.mgmt.alertMask, pending := s.pending }

theorem settings_of_stores {s t : State} (h : t.stores = s.stores) : t.settings = s.settings := by
  simp only [State.stores, Stores.mk.injEq] at h
  obtain ⟨-, -, hparams, hmask, -, hpending⟩ := h
  simp only [State.settings, hparams, hmask, hpending]

theorem settings_of_base {s t : State} (h : t.base = s.base) : t.settings = s.settings :=
  settings_of_stores (stores_of_base h)

theorem FlashFrame.settings {s t : State} (h : FlashFrame s t) : t.settings = s.settings := by
  rw [h]; rfl

@[simp] theorem setReceiver_settings (s : State) (r : Receiver) : (s.setReceiver r).settings = s.settings := rfl

@[simp] theorem setPfail_settings (s : State) (level : Bool) : (setPfail level s).settings = s.settings := rfl

/-- R161: an internal reset keeps the parameters and the alert mask. -/
theorem internalReset_settings (s : State) : (internalReset s).settings = s.settings :=
  (settings_of_base (beginMount_base (resetBlocks s))).trans rfl

end Sys2Proof.Machine
end

section
/-! SUPPORT. What the events that may touch the arrays, the parameters or the alert mask do to the stores, one group of
lemmas per event: the flash's answers and timeouts, the drains, and the management commands. -/

-- In order: as one text the package would start more threads than memory has stacks for.
set_option Elab.async false

namespace Sys2Proof.Machine

/-! ## Flash answers and timeouts -/

theorem endErase_inv (bk : BankId) (pass : Bool) {s : State} (h : s.Inv) : (endErase bk pass s).Inv := by
  unfold endErase
  split
  · exact inv_of_base (setBank_base _ _ _)
      ((eraseArray_frame _ _ _).inv (fun hwf => memoryWf_eraseArray _ _ _ hwf) h)
  · exact h

theorem endErase_settings (bk : BankId) (pass : Bool) (s : State) : (endErase bk pass s).settings = s.settings := by
  unfold endErase
  split
  · exact (settings_of_base (setBank_base _ _ _)).trans (eraseArray_frame _ _ _).settings
  · rfl

theorem finishErase_inv (bk : BankId) (pass : Bool) {s : State} (h : s.Inv) : (finishErase bk pass s).Inv := by
  unfold finishErase
  split
  · exact inv_of_base (reportErase_base _ _ _ _) (endErase_inv bk pass h)
  · exact h

theorem finishErase_settings (bk : BankId) (pass : Bool) (s : State) :
    (finishErase bk pass s).settings = s.settings := by
  unfold finishErase
  split
  · exact (settings_of_base (reportErase_base _ _ _ _)).trans (endErase_settings ..)
  · rfl

theorem completeErase_inv (bk : BankId) (pass : Bool) {s : State} (h : s.Inv) : (completeErase bk pass s).Inv := by
  unfold completeErase
  split
  · exact inv_of_base (kickBanks_base _) (finishErase_inv bk pass (inv_of_base (idleBank_base _ _) h))
  · exact h

theorem completeErase_settings (bk : BankId) (pass : Bool) (s : State) :
    (completeErase bk pass s).settings = s.settings := by
  unfold completeErase
  split
  · exact ((settings_of_base (kickBanks_base _)).trans (finishErase_settings ..)).trans
      (settings_of_base (idleBank_base _ _))
  · rfl

theorem failErase_inv (bk : BankId) {s : State} (h : s.Inv) : (failErase bk s).Inv :=
  inv_of_base (by rw [failErase, kickBanks_base, beginBankReset_base]) (finishErase_inv bk false h)

theorem failErase_settings (bk : BankId) (s : State) : (failErase bk s).settings = s.settings :=
  (settings_of_base (by rw [failErase, kickBanks_base, beginBankReset_base])).trans
    (finishErase_settings bk false s)

/-- The end of a program after its array has changed (R101, R109). -/
theorem settle_finishProgram_base (bk : BankId) (c : ReqClass) (pass : Bool) (s : State) :
    (settle (endAction bk (finishProgram bk c pass s))).base = s.base := by simp

theorem exec_programVerifyDone_inv {bk : BankId} {value : HalfWord} {s t : State}
    (h : exec (.programVerifyDone bk value) s = .next t) (hs : s.Inv) : t.Inv := by
  simp only [exec, execProgramVerifyDone] at h
  split at h
  · obtain rfl := Host.Outcome.next.inj h
    exact inv_of_base (settle_finishProgram_base ..)
      ((setHalf_frame ..).inv (memoryWf_setHalf s bk _ _ _) hs)
  · obtain rfl := Host.Outcome.next.inj h
    exact hs

theorem exec_programVerifyDone_settings {bk : BankId} {value : HalfWord} {s t : State}
    (h : exec (.programVerifyDone bk value) s = .next t) : t.settings = s.settings := by
  simp only [exec, execProgramVerifyDone] at h
  split at h
  · obtain rfl := Host.Outcome.next.inj h
    exact (settings_of_base (settle_finishProgram_base ..)).trans (setHalf_frame ..).settings
  · obtain rfl := Host.Outcome.next.inj h
    rfl

/-- A program that its timeout ended, reported as failed (R109). -/
def timedOut (bk : BankId) (c : ReqClass) (slot : SlotRef) (h : Fin 256) (v : HalfWord) (s : State) : State :=
  finishProgram bk c false (halfDone bk c true slot h v s)

theorem timedOut_inv (bk : BankId) (c : ReqClass) (slot : SlotRef) (h : Fin 256) (v : HalfWord) {s : State}
    (hs : s.Inv) : (timedOut bk c slot h v s).Inv :=
  inv_of_base (finishProgram_base ..) ((halfDone_frame ..).inv (memoryWf_halfDone s bk c true slot h v) hs)

theorem timedOut_settings (bk : BankId) (c : ReqClass) (slot : SlotRef) (h : Fin 256) (v : HalfWord) (s : State) :
    (timedOut bk c slot h v s).settings = s.settings :=
  (settings_of_base (finishProgram_base ..)).trans (halfDone_frame ..).settings

theorem exec_programTimeout_of_program {bk : BankId} {c : ReqClass} {slot : SlotRef} {h : Fin 256} {v : HalfWord}
    {s : State} (hactive : (s.bank bk).active = some { cls := c, act := .program slot h v }) :
    exec (.programTimeout bk) s = .next (settle (beginBankReset bk (if (s.bank bk).state = .suspended then
      finishErase bk false (timedOut bk c slot h v s) else timedOut bk c slot h v s))) := by
  simp only [exec, execProgramTimeout, hactive, timedOut]

theorem exec_programTimeout_of_no_program {bk : BankId} {s : State}
    (hactive : ∀ c slot h v, (s.bank bk).active ≠ some { cls := c, act := .program slot h v }) :
    exec (.programTimeout bk) s = .next s := by
  simp only [exec, execProgramTimeout]

/-- A bank carries out a halfword program, or none. -/
theorem program_cases (k : BankCtl) : (∃ c slot h v, k.active = some { cls := c, act := .program slot h v }) ∨
    ∀ c slot h v, k.active ≠ some { cls := c, act := .program slot h v } := by
  by_cases h : ∃ c slot h v, k.active = some { cls := c, act := .program slot h v }
  · exact .inl h
  · exact .inr fun c slot hw v hprog => h ⟨c, slot, hw, v, hprog⟩

@[simp] theorem settle_beginBankReset_base (bk : BankId) (s : State) :
    (settle (beginBankReset bk s)).base = s.base := by simp

theorem exec_programTimeout_inv {bk : BankId} {s t : State} (h : exec (.programTimeout bk) s = .next t)
    (hs : s.Inv) : t.Inv := by
  rcases program_cases (s.bank bk) with ⟨c, slot, hw, v, hprog⟩ | hnone
  · rw [exec_programTimeout_of_program hprog] at h
    obtain rfl := Host.Outcome.next.inj h
    refine inv_of_base (settle_beginBankReset_base bk _) ?_
    split
    · exact finishErase_inv bk false (timedOut_inv bk c slot hw v hs)
    · exact timedOut_inv bk c slot hw v hs
  · rw [exec_programTimeout_of_no_program hnone] at h
    obtain rfl := Host.Outcome.next.inj h
    exact hs

theorem exec_programTimeout_settings {bk : BankId} {s t : State} (h : exec (.programTimeout bk) s = .next t) :
    t.settings = s.settings := by
  rcases program_cases (s.bank bk) with ⟨c, slot, hw, v, hprog⟩ | hnone
  · rw [exec_programTimeout_of_program hprog] at h
    obtain rfl := Host.Outcome.next.inj h
    refine (settings_of_base (settle_beginBankReset_base bk _)).trans ?_
    split
    · exact (finishErase_settings bk false _).trans (timedOut_settings bk c slot hw v s)
    · exact timedOut_settings bk c slot hw v s
  · rw [exec_programTimeout_of_no_program hnone] at h
    obtain rfl := Host.Outcome.next.inj h
    rfl

/-! ## Drains -/

/-- With PFAIL asserted a drain ends in DRAINED and resets nothing (R155). -/
theorem completeDrain_base_of_pfail {s : State} (h : s.pins.pfail = true) : (completeDrain s).base = s.base := by
  simp [completeDrain, h]

theorem completeDrain_inv {s : State} (h : s.Inv) : (completeDrain s).Inv := by
  unfold completeDrain
  split
  · exact inv_of_base (by simp) h
  · split
    · exact internalReset_inv h
    · exact inv_of_base (by simp) h

theorem completeDrain_settings (s : State) : (completeDrain s).settings = s.settings := by
  unfold completeDrain
  split
  · exact settings_of_base (by simp)
  · split
    · exact internalReset_settings s
    · exact settings_of_base (by simp)

theorem testDrain_inv {s : State} (h : s.Inv) : (testDrain s).Inv := by
  unfold testDrain
  split
  · exact completeDrain_inv h
  · exact h

theorem testDrain_settings (s : State) : (testDrain s).settings = s.settings := by
  unfold testDrain
  split
  · exact completeDrain_settings s
  · rfl

theorem pins_of_base {s t : State} (h : t.base = s.base) : t.pins = s.pins := congrArg Base.pins h

/-- The state in which PFAIL's assertion tests the drain has the base of the pin's change. -/
theorem assertPfail_stores (s : State) : (assertPfail s).stores = s.stores := by
  have hbase : (settle (holdBanks (pfailAtDrain (setPfail true s)))).base = (setPfail true s).base := by simp
  have hpfail : (settle (holdBanks (pfailAtDrain (setPfail true s)))).pins.pfail = true := by
    rw [pins_of_base hbase]; rfl
  have htest : (assertPfail s).base = (setPfail true s).base := by
    unfold assertPfail testDrain
    split
    · exact (completeDrain_base_of_pfail hpfail).trans hbase
    · exact hbase
  exact (stores_of_base htest).trans (setPfail_stores s true)

theorem releaseAtDrain_inv {s : State} (h : s.Inv) : (releaseAtDrain s).Inv := by
  have hdrop : (dropLine s).Inv := inv_of_base (dropLine_base s) h
  simp only [releaseAtDrain]
  split
  · split
    · exact internalReset_inv hdrop
    · split <;> exact inv_of_base (by simp) hdrop
  all_goals exact inv_of_base (by simp) hdrop

theorem releaseAtDrain_settings (s : State) : (releaseAtDrain s).settings = s.settings := by
  have hdrop : (dropLine s).settings = s.settings := rfl
  simp only [releaseAtDrain]
  split
  · split
    · exact (internalReset_settings _).trans hdrop
    · split <;> exact settings_of_base (by simp)
  all_goals exact settings_of_base (by simp)

theorem releasePfail_inv {s : State} (h : s.Inv) : (releasePfail s).Inv := by
  have hbanks : (releaseBanks (setPfail false s)).Inv := inv_of_base (releaseBanks_base _) h
  exact inv_of_base (settle_base _) (testDrain_inv (inv_of_base (settle_base _) (releaseAtDrain_inv hbanks)))

theorem releasePfail_settings (s : State) : (releasePfail s).settings = s.settings :=
  calc (releasePfail s).settings
      = (settle (releaseAtDrain (releaseBanks (setPfail false s)))).settings :=
        (settings_of_base (settle_base _)).trans (testDrain_settings _)
    _ = (releaseBanks (setPfail false s)).settings :=
        (settings_of_base (settle_base _)).trans (releaseAtDrain_settings _)
    _ = s.settings := (settings_of_base (releaseBanks_base _)).trans (setPfail_settings s false)

end Sys2Proof.Machine
end

section
/-! SUPPORT. The parameter set (R173, R174): reading and writing a parameter by its id, and its range. -/

-- In order: as one text the package would start more threads than memory has stacks for.
set_option Elab.async false

namespace Sys2Proof.Machine

/-- The ids that name a parameter are 1 to 10 (R173). -/
theorem paramRange_isSome_iff (id : Nat) : (paramRange id).isSome = true ↔ 1 ≤ id ∧ id ≤ 10 := by
  constructor
  · intro h
    unfold paramRange at h
    split at h <;> simp_all
  · rintro ⟨h1, h10⟩
    interval_cases id <;> rfl

/-- An id without a range names no parameter. -/
theorem paramAdmits_range {id v : Nat} (h : paramAdmits id v = true) : 1 ≤ id ∧ id ≤ 10 := by
  refine (paramRange_isSome_iff id).mp ?_
  unfold paramAdmits at h
  split at h
  case h_1 hrange => simp [hrange]
  case h_2 => cases h

theorem paramAdmits_iff {id v lo hi : Nat} (h : paramRange id = some (lo, hi)) :
    paramAdmits id v = true ↔ lo ≤ v ∧ v ≤ hi := by
  simp [paramAdmits, h]

theorem Params.get_put_same (p : Params) {id : Nat} (v : Nat) (h : 1 ≤ id ∧ id ≤ 10) :
    (p.put id v).get id = some v := by
  obtain ⟨h1, h10⟩ := h
  interval_cases id <;> rfl

theorem Params.put_of_not_range (p : Params) {id : Nat} (v : Nat) (h : ¬ (1 ≤ id ∧ id ≤ 10)) : p.put id v = p := by
  unfold Params.put
  split <;> first | rfl | omega

theorem Params.get_of_not_range (p : Params) {id : Nat} (h : ¬ (1 ≤ id ∧ id ≤ 10)) : p.get id = none := by
  unfold Params.get
  split <;> first | rfl | omega

theorem Params.get_put_ne (p : Params) {id other : Nat} (v : Nat) (h : other ≠ id) :
    (p.put id v).get other = p.get other := by
  by_cases hid : 1 ≤ id ∧ id ≤ 10
  · by_cases hother : 1 ≤ other ∧ other ≤ 10
    · obtain ⟨h1, h10⟩ := hid
      obtain ⟨o1, o10⟩ := hother
      interval_cases id <;> interval_cases other <;> first | rfl | exact absurd rfl h
    · rw [Params.get_of_not_range _ hother, Params.get_of_not_range _ hother]
  · rw [Params.put_of_not_range p v hid]

/-- Every parameter named by an id lies within its range (R173). -/
theorem Params.inRange_iff (p : Params) :
    p.inRange = true ↔ ∀ id v, 1 ≤ id ∧ id ≤ 10 → p.get id = some v → paramAdmits id v = true := by
  simp only [Params.inRange, List.all_eq_true, List.mem_range]
  constructor
  · intro h id v hid hget
    obtain ⟨h1, h10⟩ := hid
    have hrow := h (id - 1) (by omega)
    have hsucc : id - 1 + 1 = id := by omega
    rwa [hsucc, hget] at hrow
  · intro h i hi
    have hid : 1 ≤ i + 1 ∧ i + 1 ≤ 10 := by omega
    cases hget : p.get (i + 1) with
    | none => interval_cases i <;> cases hget
    | some v => exact h (i + 1) v hid hget

/-- R174: a write that the range admits keeps the set within its ranges. -/
theorem Params.inRange_put {p : Params} {id v : Nat} (hp : p.inRange = true) (hv : paramAdmits id v = true) :
    (p.put id v).inRange = true := by
  rw [Params.inRange_iff] at hp ⊢
  intro other w hother hget
  by_cases h : other = id
  · subst h
    rw [Params.get_put_same p v hother, Option.some.injEq] at hget
    rwa [← hget]
  · rw [Params.get_put_ne p v h] at hget
    exact hp other w hother hget

end Sys2Proof.Machine
end

section
/-! SUPPORT. What the management commands do to the stores, at their taking (R164), and so the two ways a command comes
in: the rest of its frame at once, or bit by bit. -/

-- In order: as one text the package would start more threads than memory has stacks for.
set_option Elab.async false

namespace Sys2Proof.Machine

/-! ## At the taking -/

theorem takeClearFlags_inv (mask : BitVec 16) {s : State} (h : s.Inv) : (takeClearFlags mask s).2.Inv := by
  obtain ⟨hwf, hparams, hflags⟩ := h
  refine ⟨hwf, hparams, ?_⟩
  simp only [State.flagsWf, beq_iff_eq] at hflags
  show (s.mgmt.flags &&& ~~~mask &&& ~~~flagBits == 0#16) = true
  rw [beq_iff_eq, BitVec.and_assoc, BitVec.and_comm (~~~mask), ← BitVec.and_assoc, hflags, BitVec.zero_and]

theorem takeWriteParam_inv (id : Byte) (value : BitVec 16) {s : State} (h : s.Inv) :
    (takeWriteParam id value s).2.Inv := by
  unfold takeWriteParam
  split
  case isFalse => exact h
  case isTrue hadmits =>
    obtain ⟨hwf, hparams, hflags⟩ := h
    have hset : (setParam id.toNat value.toNat s).Inv := ⟨hwf, Params.inRange_put hparams hadmits, hflags⟩
    dsimp only
    split
    · exact inv_of_base (by simp) hset
    · exact hset

theorem takeFlush_base (s : State) : (takeFlush s).2.base = s.base := by
  unfold takeFlush; split <;> simp

theorem takeResumeCommit_base (s : State) : (takeResumeCommit s).2.base = s.base := by
  unfold takeResumeCommit; split <;> simp

theorem takeFormatCommand_base (pages : BitVec 16) (s : State) : (takeFormatCommand pages s).2.base = s.base := by
  unfold takeFormatCommand
  split
  · rfl
  · split
    · simp
    · rfl

theorem takeRestart_inv {s : State} (h : s.Inv) : (takeRestart s).2.Inv := by
  unfold takeRestart
  split
  case h_1 => exact inv_of_base (by simp) h
  case h_2 => exact internalReset_inv h
  case h_3 => exact testDrain_inv (inv_of_base (setRestart_base s) h)
  case h_4 => exact inv_of_base (setRestart_base s) h
  case h_5 => exact h
  case h_6 => exact h

theorem takeRestart_settings (s : State) : (takeRestart s).2.settings = s.settings := by
  unfold takeRestart
  split
  case h_1 => exact settings_of_base (by simp)
  case h_2 => exact internalReset_settings s
  case h_3 => exact (testDrain_settings _).trans (settings_of_base (setRestart_base s))
  case h_4 => exact settings_of_base (setRestart_base s)
  case h_5 => rfl
  case h_6 => rfl

/-- The queries and the reads answer with the part as it stands (R169 to R171, R174, R180). -/
theorem takeReadParam_state (id : Byte) (s : State) : (takeReadParam id s).2 = s := by
  unfold takeReadParam; split <;> rfl

theorem takeQueryPage_state (lpn : BitVec 16) (s : State) : (takeQueryPage lpn s).2 = s := by
  unfold takeQueryPage
  split
  · rfl
  · split <;> rfl

theorem takeQueryBlock_state (bank index : Byte) (s : State) : (takeQueryBlock bank index s).2 = s := by
  unfold takeQueryBlock
  split
  · rfl
  · split <;> rfl

theorem takeReadCounter_state (id : Byte) (s : State) : (takeReadCounter id s).2 = s := by
  unfold takeReadCounter; split <;> rfl

/-- Of the stores, WRITE PARAM changes the parameters alone (R174). -/
theorem takeWriteParam_stores (id : Byte) (value : BitVec 16) (s : State) :
    (takeWriteParam id value s).2.stores =
      { s.stores with params := (takeWriteParam id value s).2.mgmt.params } := by
  unfold takeWriteParam
  split
  case isFalse => rfl
  case isTrue =>
    dsimp only
    split
    · have hstores := stores_of_base (s := setParam id.toNat value.toNat s)
        (t := settle (evaluateTriggers (setParam id.toNat value.toNat s))) (by simp)
      have hparams := congrArg Stores.params hstores
      calc (settle (evaluateTriggers (setParam id.toNat value.toNat s))).stores
          = { s.stores with params := (setParam id.toNat value.toNat s).stores.params } := hstores
        _ = _ := by rw [← hparams]; rfl
    · rfl

/-- Whatever the code and the arguments name, its taking keeps the invariant. -/
theorem takeCommand_inv (code : Byte) (args : List Byte) {s : State} (h : s.Inv) : (takeCommand code args s).2.Inv := by
  unfold takeCommand
  split
  case h_4 => exact takeClearFlags_inv _ h
  case h_6 => rwa [takeReadParam_state]
  case h_7 => exact takeWriteParam_inv _ _ h
  case h_8 => exact inv_of_base (takeFlush_base s) h
  case h_9 => exact inv_of_base (takeResumeCommit_base s) h
  case h_10 => exact inv_of_base (takeFormatCommand_base _ s) h
  case h_11 => exact takeRestart_inv h
  case h_12 => rwa [takeQueryPage_state]
  case h_13 => rwa [takeQueryBlock_state]
  case h_14 => rwa [takeReadCounter_state]
  all_goals exact h

theorem pending_of_settings {s t : State} (h : t.settings = s.settings) : t.pending = s.pending :=
  congrArg Settings.pending h

theorem takeCommand_pending (code : Byte) (args : List Byte) (s : State) :
    (takeCommand code args s).2.pending = s.pending := by
  unfold takeCommand
  split
  case h_6 => rw [takeReadParam_state]
  case h_7 => exact congrArg Stores.pending (takeWriteParam_stores _ _ s)
  case h_8 => exact pending_of_settings (settings_of_base (takeFlush_base s))
  case h_9 => exact pending_of_settings (settings_of_base (takeResumeCommit_base s))
  case h_10 => exact pending_of_settings (settings_of_base (takeFormatCommand_base _ s))
  case h_11 => exact pending_of_settings (takeRestart_settings s)
  case h_12 => rw [takeQueryPage_state]
  case h_13 => rw [takeQueryBlock_state]
  case h_14 => rw [takeReadCounter_state]
  all_goals rfl

/-! ## The frame receiver -/

theorem setReceiver_inv (r : Receiver) {s : State} (h : s.Inv) : (s.setReceiver r).Inv :=
  inv_of_stores (setReceiver_stores s r) h

/-- What a frame's rest does is the receiver's capture after the command's own effect. -/
theorem takeFrame_cases (code : Byte) (args : List Byte) (body : State → Taken) (s : State) :
    takeFrame code args body s = capture code args (body s) ∨ takeFrame code args body s = s := by
  simp only [takeFrame]
  split
  · exact .inl rfl
  · exact .inr rfl

theorem takeFrame_inv (code : Byte) (args : List Byte) {body : State → Taken} {s : State} (hs : s.Inv)
    (hbody : (body s).2.Inv) : (takeFrame code args body s).Inv := by
  rcases takeFrame_cases code args body s with h | h <;> rw [h]
  · exact setReceiver_inv _ hbody
  · exact hs

theorem takeFrame_settings (code : Byte) (args : List Byte) {body : State → Taken} {s : State}
    (hbody : (body s).2.settings = s.settings) : (takeFrame code args body s).settings = s.settings := by
  rcases takeFrame_cases code args body s with h | h <;> rw [h]
  exact (setReceiver_settings _ _).trans hbody

theorem takeFrame_stores (code : Byte) (args : List Byte) {body : State → Taken} {s : State}
    (hbody : (body s).2.stores = s.stores) : (takeFrame code args body s).stores = s.stores := by
  rcases takeFrame_cases code args body s with h | h <;> rw [h]
  exact (setReceiver_stores _ _).trans hbody

/-- A rising edge either changes the receiver alone, or takes the command that it completes. -/
theorem clockBit_cases (sdi : Bool) (s : State) :
    (∃ r, clockBit sdi s = s.setReceiver r) ∨ ∃ r code args, clockBit sdi s = (takeCommand code args s).2.setReceiver r := by
  have hcommand : ∀ code, (∃ r, commandByte code s = s.setReceiver r) ∨
      ∃ r code' args, commandByte code s = (takeCommand code' args s).2.setReceiver r := by
    intro code
    unfold commandByte
    split
    · exact .inl ⟨_, rfl⟩
    · split
      · exact .inr ⟨_, code, [], rfl⟩
      · exact .inl ⟨_, rfl⟩
  have hargument : ∀ code args, (∃ r, argumentByte code args s = s.setReceiver r) ∨
      ∃ r code' args', argumentByte code args s = (takeCommand code' args' s).2.setReceiver r := by
    intro code args
    unfold argumentByte
    split
    · exact .inr ⟨_, code, args, rfl⟩
    · exact .inl ⟨_, rfl⟩
  simp only [clockBit]
  split
  case h_1 => exact .inl ⟨s.mgmt.receiver, rfl⟩
  case h_2 => exact .inl ⟨_, rfl⟩
  case h_3 =>
    split
    · exact hcommand _
    · exact .inl ⟨_, rfl⟩
  case h_4 =>
    split
    · split
      · exact hargument _ _
      · exact .inl ⟨_, rfl⟩
    · exact .inl ⟨_, rfl⟩

theorem clockBit_inv (sdi : Bool) {s : State} (h : s.Inv) : (clockBit sdi s).Inv := by
  rcases clockBit_cases sdi s with ⟨r, heq⟩ | ⟨r, code, args, heq⟩ <;> rw [heq]
  · exact setReceiver_inv r h
  · exact setReceiver_inv r (takeCommand_inv code args h)

theorem clockBit_pending (sdi : Bool) (s : State) : (clockBit sdi s).pending = s.pending := by
  rcases clockBit_cases sdi s with ⟨r, heq⟩ | ⟨r, code, args, heq⟩ <;> rw [heq]
  · rfl
  · exact takeCommand_pending code args s

end Sys2Proof.Machine
end

section
/-! PROOF. The invariant of every step (R173, R176, R182), and the frame of every command over the arrays, the
parameters, the alert mask and the queue. -/

-- In order: as one text the package would start more threads than memory has stacks for.
set_option Elab.async false

namespace Sys2Proof.Machine

/-! ## Commands that leave every store alone -/

/-- The commands that reach neither an array nor a store of the management port other than flags and receiver. -/
def isQuiet : Instr → Bool
  | .powerOn _ => false
  | .resetAsserted _ => false
  | .programVerifyDone _ _ => false
  | .eraseComplete _ _ => false
  | .eraseCompleteInSuspending _ _ => false
  | .programTimeout _ => false
  | .suspendAckTimeout _ => false
  | .eraseTimeout _ => false
  | .pfailReleased => false
  | .drainFinish => false
  | .clearFlags _ => false
  | .setAlertMask _ => false
  | .writeParam _ _ => false
  | .restart => false
  | .sckRisingEdge _ => false
  | _ => true

theorem assertStrobes_stores (x : Strobes) (s : State) : (assertStrobes x s).stores = s.stores := by
  unfold assertStrobes
  split
  · exact (stores_of_base (arriveFromPins_base _)).trans (pins_stores s _)
  all_goals rfl

theorem withdrawStrobes_stores (s : State) : (withdrawStrobes s).stores = s.stores := by
  unfold withdrawStrobes
  split
  · rfl
  · split
    · exact (show (portIdle (withdrawCycleRead _ s)).stores = (withdrawCycleRead _ s).stores from rfl).trans
        (stores_of_base (withdrawCycleRead_base s _))
    · rfl
  · rfl
  · rfl

theorem releaseReset_stores (s : State) : (releaseReset s).stores = s.stores :=
  stores_of_base (by rw [releaseReset, arriveFromPins_base, beginMount_base, port_base])

theorem startFrame_stores (s : State) : (startFrame s).stores = s.stores := by
  simp only [startFrame]
  split
  · rfl
  · split
    · rfl
    · split <;> rfl

theorem endFrame_stores (s : State) : (endFrame s).stores = s.stores := by
  simp only [endFrame, setReceiver_stores]
  split
  · exact (stores_of_base (setFlag_base _ _)).trans (pins_stores s _)
  · rfl

/-- A command that acts under a condition keeps what its effect keeps. -/
theorem stores_ite {p : Prop} {h : Decidable p} {s t : State} (ht : t.stores = s.stores) :
    (if p then t else s).stores = s.stores := by
  split
  · exact ht
  · rfl

theorem exec_arrayReadDone_stores {bk : BankId} {answer : ReadAnswer} {s t : State}
    (h : exec (.arrayReadDone bk answer) s = .next t) : t.stores = s.stores := by
  simp only [exec, execArrayReadDone] at h
  split at h <;> obtain rfl := Host.Outcome.next.inj h
  · exact stores_of_base (by rw [afterRead_base, finishRead_base])
  · rfl

theorem exec_programEnd_stores {bk : BankId} {s t : State} (h : exec (.programEnd bk) s = .next t) :
    t.stores = s.stores := by
  simp only [exec, execProgramEnd] at h
  split at h <;> obtain rfl := Host.Outcome.next.inj h
  · exact stores_of_base (setAction_base _ _ _)
  · rfl

theorem exec_stores_of_quiet {c : Instr} {s t : State} (hc : isQuiet c = true) (h : exec c s = .next t) :
    t.stores = s.stores := by
  cases c
  case arrayReadDone => exact exec_arrayReadDone_stores h
  case programEnd => exact exec_programEnd_stores h
  case resetReleased => cases h; exact stores_ite (releaseReset_stores s)
  case hostReadArrival => cases h; exact assertStrobes_stores _ s
  case hostWriteArrival => cases h; exact assertStrobes_stores _ s
  case cycleBothStrobes => cases h; exact assertStrobes_stores _ s
  case cycleEnd => cases h; exact withdrawStrobes_stores s
  case cycleAbandoned => cases h; exact withdrawStrobes_stores s
  case holdTimerExpiry => cases h; exact stores_of_base (expireHold_base s)
  case idleTimerExpiry => cases h; exact stores_ite (stores_of_base (by simp))
  case ageTimerExpiry => cases h; exact stores_ite (stores_of_base (by simp))
  case suspendAcknowledged => cases h; exact stores_ite (stores_of_base (by simp))
  case quantumTimerExpiry => cases h; exact stores_ite (stores_of_base (by simp))
  case bankResetComplete => cases h; exact stores_ite (stores_of_base (endBankReset_base s _))
  case bankResetTimerExpiry => cases h; exact stores_ite (stores_of_base (endBankReset_base s _))
  case pfailAsserted =>
    cases h
    show (if s.pins.pfail then s else assertPfail s).stores = s.stores
    split
    · rfl
    · exact assertPfail_stores s
  case formatDrainedAssert => cases h; exact stores_ite (stores_of_base (assertLine_base s))
  case formatAbandonEnd => cases h; exact stores_ite (stores_of_base (failFormat_base s))
  case mountCandidateChoice => cases h; exact stores_ite (stores_of_base (by simp))
  case mountEnd => cases h; exact stores_ite (stores_of_base (by simp))
  case formatBankStart => cases h; exact stores_ite (stores_of_base (by simp))
  case formatVolumeRecord => cases h; exact stores_ite (stores_of_base (by simp))
  case frameStart => cases h; exact startFrame_stores s
  case frameEnd => cases h; exact endFrame_stores s
  case unknownCommand =>
    cases h
    show (if knownCode _ then s else _).stores = s.stores
    split
    · rfl
    · exact takeFrame_stores _ _ rfl
  case identify => cases h; exact takeFrame_stores _ _ rfl
  case status => cases h; exact takeFrame_stores _ _ rfl
  case readFlags => cases h; exact takeFrame_stores _ _ rfl
  case readParam => cases h; exact takeFrame_stores _ _ (by rw [takeReadParam_state])
  case flush => cases h; exact takeFrame_stores _ _ (stores_of_base (takeFlush_base s))
  case resumeCommit => cases h; exact takeFrame_stores _ _ (stores_of_base (takeResumeCommit_base s))
  case format => cases h; exact takeFrame_stores _ _ (stores_of_base (takeFormatCommand_base _ s))
  case queryPage => cases h; exact takeFrame_stores _ _ (by rw [takeQueryPage_state])
  case queryBlock => cases h; exact takeFrame_stores _ _ (by rw [takeQueryBlock_state])
  case readCounter => cases h; exact takeFrame_stores _ _ (by rw [takeReadCounter_state])
  case clearCounters => cases h; exact takeFrame_stores _ _ rfl
  all_goals cases hc

/-! ## Every command keeps the invariant -/

theorem inv_ite {p : Prop} {h : Decidable p} {s t : State} (ht : t.Inv) (hs : s.Inv) : (if p then t else s).Inv := by
  split
  · exact ht
  · exact hs

theorem exec_inv {c : Instr} {s t : State} (h : exec c s = .next t) (hs : s.Inv) : t.Inv := by
  cases c
  case powerOn => cases h; exact pinReset_inv _ hs
  case resetAsserted => cases h; exact pinReset_inv _ hs
  case programVerifyDone => exact exec_programVerifyDone_inv h hs
  case eraseComplete => cases h; exact completeErase_inv _ _ hs
  case eraseCompleteInSuspending => cases h; exact completeErase_inv _ _ hs
  case programTimeout => exact exec_programTimeout_inv h hs
  case suspendAckTimeout => cases h; exact inv_ite (failErase_inv _ hs) hs
  case eraseTimeout => cases h; exact inv_ite (failErase_inv _ hs) hs
  case pfailReleased => cases h; exact inv_ite (releasePfail_inv hs) hs
  case drainFinish => cases h; exact inv_ite (inv_of_base (settle_base _) (completeDrain_inv hs)) hs
  case clearFlags => cases h; exact takeFrame_inv _ _ hs (takeClearFlags_inv _ hs)
  case setAlertMask => cases h; exact takeFrame_inv _ _ hs hs
  case writeParam => cases h; exact takeFrame_inv _ _ hs (takeWriteParam_inv _ _ hs)
  case restart => cases h; exact takeFrame_inv _ _ hs (takeRestart_inv hs)
  case sckRisingEdge => cases h; exact clockBit_inv _ hs
  all_goals exact inv_of_stores (exec_stores_of_quiet rfl h) hs

/-- Settles O4: a microsecond touches no store, and a command keeps the invariant by `exec_inv`. -/
theorem stepKeepsInvariant : Obligations.StepKeepsInvariant := by
  intro s t hs h
  unfold step at h
  split at h
  case h_1 =>
    obtain rfl := Host.Outcome.next.inj h
    exact hs
  case h_2 c rest hpending => exact exec_inv h hs

/-! ## The frame of every command -/

theorem params_of_settings {s t : State} (h : t.settings = s.settings) : t.mgmt.params = s.mgmt.params :=
  congrArg Settings.params h

theorem alertMask_of_settings {s t : State} (h : t.settings = s.settings) : t.mgmt.alertMask = s.mgmt.alertMask :=
  congrArg Settings.alertMask h

theorem settings_ite {p : Prop} {h : Decidable p} {s t : State} (ht : t.settings = s.settings) :
    (if p then t else s).settings = s.settings := by
  split
  · exact ht
  · rfl

/-- The clauses of the frame for a command that may touch the arrays and no setting. -/
theorem frame_of_settings {c : Instr} {s t : State} (harrays : mayTouchArrays c = true)
    (h : t.settings = s.settings) :
    (mayTouchArrays c = false → SameArrays s t) ∧ (mayTouchParams c = false → t.mgmt.params = s.mgmt.params) ∧
      (mayTouchAlertMask c = false → t.mgmt.alertMask = s.mgmt.alertMask) ∧ t.pending = s.pending :=
  ⟨fun hnot => (Bool.false_ne_true (hnot.symm.trans harrays)).elim, fun _ => params_of_settings h,
    fun _ => alertMask_of_settings h, pending_of_settings h⟩

/-- The clauses of the frame for a command that touches none of the stores but its own setting. -/
theorem frame_of_stores {c : Instr} {s t : State} (h : t.stores = s.stores) :
    (mayTouchArrays c = false → SameArrays s t) ∧ (mayTouchParams c = false → t.mgmt.params = s.mgmt.params) ∧
      (mayTouchAlertMask c = false → t.mgmt.alertMask = s.mgmt.alertMask) ∧ t.pending = s.pending :=
  ⟨fun _ => sameArrays_of_stores h, fun _ => params_of_settings (settings_of_stores h),
    fun _ => alertMask_of_settings (settings_of_stores h), pending_of_settings (settings_of_stores h)⟩

/-- Settles O6: a quiet command keeps every store, and each other command is taken in turn. -/
theorem arraysParametersAndMaskAreFramed : Obligations.ArraysParametersAndMaskAreFramed := by
  intro c s t h
  cases c
  case powerOn => cases h; exact ⟨nofun, nofun, nofun, rfl⟩
  case resetAsserted => cases h; exact ⟨nofun, nofun, nofun, rfl⟩
  case programVerifyDone => exact frame_of_settings rfl (exec_programVerifyDone_settings h)
  case eraseComplete => cases h; exact frame_of_settings rfl (completeErase_settings _ _ s)
  case eraseCompleteInSuspending => cases h; exact frame_of_settings rfl (completeErase_settings _ _ s)
  case programTimeout => exact frame_of_settings rfl (exec_programTimeout_settings h)
  case suspendAckTimeout => cases h; exact frame_of_settings rfl (settings_ite (failErase_settings _ s))
  case eraseTimeout => cases h; exact frame_of_settings rfl (settings_ite (failErase_settings _ s))
  case pfailReleased => cases h; exact frame_of_settings rfl (settings_ite (releasePfail_settings s))
  case drainFinish =>
    cases h
    exact frame_of_settings rfl
      (settings_ite ((settings_of_base (settle_base _)).trans (completeDrain_settings s)))
  case restart => cases h; exact frame_of_settings rfl (takeFrame_settings _ _ (takeRestart_settings s))
  case clearFlags mask =>
    cases h
    rcases takeFrame_cases 0x04#8 (argWord mask) (takeClearFlags mask) s with heq | heq <;> rw [heq]
    · exact ⟨fun _ bk a => by cases bk <;> rfl, fun _ => rfl, fun _ => rfl, rfl⟩
    · exact frame_of_stores rfl
  case setAlertMask mask =>
    cases h
    rcases takeFrame_cases 0x05#8 (argWord mask) (takeSetAlertMask mask) s with heq | heq <;> rw [heq]
    · exact ⟨fun _ bk a => by cases bk <;> rfl, fun _ => rfl, nofun, rfl⟩
    · exact frame_of_stores rfl
  case writeParam id value =>
    cases h
    rcases takeFrame_cases 0x07#8 (id :: argWord value) (takeWriteParam id value) s with heq | heq <;> rw [heq]
    · have hstores := takeWriteParam_stores id value s
      exact ⟨fun _ => sameArrays_of_flash (congrArg Stores.flashA hstores) (congrArg Stores.flashB hstores), nofun,
        fun _ => congrArg Stores.alertMask hstores, congrArg Stores.pending hstores⟩
    · exact frame_of_stores rfl
  case sckRisingEdge => cases h; exact ⟨nofun, nofun, nofun, clockBit_pending _ s⟩
  all_goals exact frame_of_stores (exec_stores_of_quiet rfl h)

/-! ## The frame of the arbiter and the banks -/

/-- What is kept of the service controller is all of it but the latch. -/
theorem service_of_kept {s t : State} (h : t.kept = s.kept) :
    t.service = { s.service with latch := t.service.latch } := by
  have hservice := congrArg Kept.service h
  simp only [State.kept, Service.mk.injEq] at hservice
  obtain ⟨hstate, hstrap, -, hpages, hcount, hserial⟩ := hservice
  show t.service = { state := s.service.state, strap := s.service.strap, latch := t.service.latch,
                     pages := s.service.pages, bankCount := s.service.bankCount, serial := s.service.serial }
  rw [← hstate, ← hstrap, ← hpages, ← hcount, ← hserial]

/-- Settles O7: `settle_base` and `settle_kept` field by field. -/
theorem settlingKeepsTheRest : Obligations.SettlingKeepsTheRest := by
  intro s
  have hbase := settle_base s
  have hkept := settle_kept s
  simp only [State.base, Base.mk.injEq] at hbase
  simp only [State.kept, Kept.mk.injEq, List.cons.injEq, and_true] at hkept
  obtain ⟨hpins, hA, hB, hparams, hmask, hreceiver, -, hnow, hfree, hpending⟩ := hbase
  obtain ⟨hmap, hdrain, hengine, -, hcounts, -⟩ := hkept
  refine ⟨hpins, hA, hB, hmap, hdrain, hengine, service_of_kept (settle_kept s), hparams, hmask, hreceiver, ?counts,
    hnow, hfree, hpending⟩
  case counts => simpa using hcounts

end Sys2Proof.Machine
end

section
/-! SUPPORT. Frames: which parts of the state an operation of the bank controllers and of the block manager may change
at all. One lemma per operation, each built from those of the operations it calls. -/

-- In order: as one text the package would start more threads than memory has stacks for.
set_option Elab.async false

namespace Sys2Proof.Machine

/-! ## Bank controllers -/

/-- `t` is `s` but for the bank controllers. -/
def BankFrame (s t : State) : Prop := t = { s with bankA := t.bankA, bankB := t.bankB }

namespace BankFrame

variable {s t u : State}

theorem refl (s : State) : BankFrame s s := rfl

theorem trans (hst : BankFrame s t) (htu : BankFrame t u) : BankFrame s u := by
  unfold BankFrame at *
  rw [htu, hst]

theorem pins (h : BankFrame s t) : t.pins = s.pins := by rw [h]
theorem service (h : BankFrame s t) : t.service = s.service := by rw [h]
theorem drain (h : BankFrame s t) : t.drain = s.drain := by rw [h]
theorem port (h : BankFrame s t) : t.port = s.port := by rw [h]
theorem staging (h : BankFrame s t) : t.staging = s.staging := by rw [h]
theorem pageMap (h : BankFrame s t) : t.pageMap = s.pageMap := by rw [h]
theorem mover (h : BankFrame s t) : t.mover = s.mover := by rw [h]
theorem blocks (h : BankFrame s t) : t.blocks = s.blocks := by rw [h]
theorem flashA (h : BankFrame s t) : t.flashA = s.flashA := by rw [h]
theorem flashB (h : BankFrame s t) : t.flashB = s.flashB := by rw [h]
theorem engine (h : BankFrame s t) : t.engine = s.engine := by rw [h]
theorem mgmt (h : BankFrame s t) : t.mgmt = s.mgmt := by rw [h]

end BankFrame

/-- `t` is `s` but for one bank controller. -/
def OneBank (bk : BankId) (s t : State) : Prop := t = s.setBank bk (t.bank bk)

namespace OneBank

variable {s t u : State} {bk : BankId}

theorem refl (bk : BankId) (s : State) : OneBank bk s s := (setBank_bank_self s bk).symm

theorem trans (hst : OneBank bk s t) (htu : OneBank bk t u) : OneBank bk s u := by
  unfold OneBank at *
  rw [htu, hst]
  cases bk <;> rfl

theorem frame (h : OneBank bk s t) : BankFrame s t := by
  rw [h]; cases bk <;> rfl

/-- The other bank controller is as it was. -/
theorem bank_ne (h : OneBank bk s t) {other : BankId} (hne : other ≠ bk) : t.bank other = s.bank other := by
  rw [h]; exact setBank_bank_ne s _ hne

end OneBank

theorem setBank_oneBank (s : State) (bk : BankId) (k : BankCtl) : OneBank bk s (s.setBank bk k) := by
  cases bk <;> rfl

theorem handOver_oneBank (bk : BankId) (c : ReqClass) (op : ReqOp) (s : State) : OneBank bk s (handOver bk c op s) :=
  setBank_oneBank ..

theorem handErase_oneBank (r : EraseRequest) (s : State) : OneBank (BlockRef.bank r.block) s (handErase r s) :=
  setBank_oneBank ..

theorem beginAction_oneBank (bk : BankId) (c : ReqClass) (a : Action) (s : State) :
    OneBank bk s (beginAction bk c a s) := setBank_oneBank ..

theorem beginClass_oneBank (bk : BankId) (c : ReqClass) (s : State) : OneBank bk s (beginClass bk c s) := by
  unfold beginClass
  split
  · exact beginAction_oneBank ..
  · exact .refl bk s

theorem chooseIdle_oneBank (bk : BankId) (s : State) : OneBank bk s (chooseIdle bk s) := by
  simp only [chooseIdle]
  split
  · exact beginAction_oneBank ..
  · split
    · exact beginClass_oneBank ..
    · split
      · split
        · exact .refl bk s
        · exact setBank_oneBank ..
      · exact .refl bk s

theorem chooseSuspended_oneBank (bk : BankId) (hold : Bool) (s : State) :
    OneBank bk s (chooseSuspended bk hold s) := by
  simp only [chooseSuspended]
  split
  · exact beginAction_oneBank ..
  · split
    · exact beginClass_oneBank ..
    · split
      · exact .refl bk s
      · exact setBank_oneBank ..

theorem decideSuspend_oneBank (bk : BankId) (c : EraseContext) (s : State) : OneBank bk s (decideSuspend bk c s) := by
  unfold decideSuspend
  split
  · exact setBank_oneBank ..
  · exact .refl bk s

/-- R98: a bank's choice changes that bank controller alone. -/
theorem kickBank_oneBank (bk : BankId) (s : State) : OneBank bk s (kickBank bk s) := by
  simp only [kickBank]
  split
  · exact .refl bk s
  · split
    case h_1 => exact chooseIdle_oneBank ..
    case h_2 =>
      split
      · exact chooseSuspended_oneBank ..
      · exact .refl bk s
    case h_3 =>
      split
      · exact decideSuspend_oneBank ..
      · exact .refl bk s
    all_goals exact .refl bk s

theorem kickBanks_frame (s : State) : BankFrame s (kickBanks s) :=
  (kickBank_oneBank .a s).frame.trans (kickBank_oneBank .b _).frame

theorem setPowerHold_oneBank (hold : Bool) (bk : BankId) (s : State) : OneBank bk s (setPowerHold hold bk s) :=
  setBank_oneBank ..

theorem holdBank_oneBank (bk : BankId) (s : State) : OneBank bk s (holdBank bk s) := by
  unfold holdBank
  split
  case h_1 => exact setBank_oneBank ..
  case h_2 => exact setPowerHold_oneBank ..
  case h_3 => exact setPowerHold_oneBank ..
  all_goals exact .refl bk s

theorem holdBanks_frame (s : State) : BankFrame s (holdBanks s) :=
  (holdBank_oneBank .a s).frame.trans (holdBank_oneBank .b _).frame

theorem releaseBanks_frame (s : State) : BankFrame s (releaseBanks s) :=
  (setPowerHold_oneBank false .a s).frame.trans (setPowerHold_oneBank false .b _).frame

theorem withdrawCycleRead_frame (c : Cycle) (s : State) : BankFrame s (withdrawCycleRead c s) := by
  unfold withdrawCycleRead
  split
  · exact (setBank_oneBank ..).frame
  · exact .refl s

/-! ## Block manager -/

/-- `t` is `s` but for the block manager and the bank controllers. -/
def BlockFrame (s t : State) : Prop := t = { s with blocks := t.blocks, bankA := t.bankA, bankB := t.bankB }

theorem BankFrame.blockFrame {s t : State} (h : BankFrame s t) : BlockFrame s t := by rw [h]; rfl

namespace BlockFrame

variable {s t u : State}

theorem refl (s : State) : BlockFrame s s := rfl

theorem trans (hst : BlockFrame s t) (htu : BlockFrame t u) : BlockFrame s u := by
  unfold BlockFrame at *
  rw [htu, hst]

theorem pins (h : BlockFrame s t) : t.pins = s.pins := by rw [h]
theorem service (h : BlockFrame s t) : t.service = s.service := by rw [h]
theorem drain (h : BlockFrame s t) : t.drain = s.drain := by rw [h]
theorem port (h : BlockFrame s t) : t.port = s.port := by rw [h]
theorem staging (h : BlockFrame s t) : t.staging = s.staging := by rw [h]
theorem pageMap (h : BlockFrame s t) : t.pageMap = s.pageMap := by rw [h]
theorem mover (h : BlockFrame s t) : t.mover = s.mover := by rw [h]
theorem engine (h : BlockFrame s t) : t.engine = s.engine := by rw [h]
theorem mgmt (h : BlockFrame s t) : t.mgmt = s.mgmt := by rw [h]

end BlockFrame

theorem modifyRecord_frame (s : State) (b : BlockRef) (f : BlockRecord → BlockRecord) :
    BlockFrame s (s.modifyRecord b f) := rfl

/-- An update of the block manager after operations within the frame. -/
theorem BlockFrame.withBlocks {s t : State} (h : BlockFrame s t) (x : BlockManager) :
    BlockFrame s { t with blocks := x } := h.trans rfl

theorem serveBank_frame (bk : BankId) (s : State) : BlockFrame s (serveBank bk s) := by
  simp only [serveBank]
  split
  · exact .refl s
  · split
    · exact ((modifyRecord_frame ..).withBlocks _).trans (handErase_oneBank _ _).frame.blockFrame
    · exact .refl s

theorem serveErases_frame (s : State) : BlockFrame s (serveErases s) :=
  (serveBank_frame .a s).trans (serveBank_frame .b _)

theorem joinErase_frame (b : BlockRef) (s : State) : BlockFrame s (joinErase b s) :=
  ((modifyRecord_frame ..).withBlocks _).trans (serveErases_frame _)

theorem evaluateTriggers_frame (s : State) : BlockFrame s (evaluateTriggers s) := by
  unfold evaluateTriggers
  split
  · split
    · exact (modifyRecord_frame ..).withBlocks _
    · exact .refl s
  · exact .refl s

theorem finishVictim_frame (s : State) : BlockFrame s (finishVictim s) := by
  unfold finishVictim
  split
  · exact (((BlockFrame.refl s).withBlocks _).trans (joinErase_frame _ _)).trans (evaluateTriggers_frame _)
  · exact .refl s

theorem livePlus_frame (b : BlockRef) (s : State) : BlockFrame s (livePlus b s) := by
  simp only [livePlus]
  split
  · exact (modifyRecord_frame ..).withBlocks _
  · exact modifyRecord_frame ..

theorem liveMinus_frame (b : BlockRef) (fromCommit : Bool) (s : State) : BlockFrame s (liveMinus b fromCommit s) := by
  have hminus := modifyRecord_frame s b fun r => { r with live := r.live - 1 }
  simp only [liveMinus]
  split
  · split
    · split
      · exact hminus.trans (joinErase_frame _ _)
      · split
        · exact hminus.trans (finishVictim_frame _)
        · exact hminus
    · exact hminus
  · exact hminus

/-- A block that may have left its last page joins the erase queue, and the triggers are evaluated. -/
theorem joinIf_frame {s t : State} (h : BlockFrame s t) (b : BlockRef) (p : Prop) [Decidable p] :
    BlockFrame s (evaluateTriggers (if p then joinErase b t else t)) := by
  refine BlockFrame.trans ?_ (evaluateTriggers_frame _)
  split
  · exact h.trans (joinErase_frame _ _)
  · exact h

theorem condemn_frame (b : BlockRef) (s : State) : BlockFrame s (condemn b s) := by
  unfold condemn
  split
  case h_1 => exact .refl s
  case h_2 =>
    split
    · exact .refl s
    · split
      case h_1 => exact .refl s
      case h_2 => exact .refl s
      case h_3 => exact joinIf_frame ((modifyRecord_frame ..).withBlocks _) _ _
      case h_4 =>
        dsimp only
        split
        · exact joinIf_frame ((modifyRecord_frame ..).withBlocks _) _ _
        · exact (modifyRecord_frame ..).trans (evaluateTriggers_frame _)
      case h_5 => exact ((modifyRecord_frame ..).withBlocks _).trans (evaluateTriggers_frame _)
      case h_6 => exact (modifyRecord_frame ..).trans (evaluateTriggers_frame _)
      case h_7 => exact (modifyRecord_frame ..).trans (evaluateTriggers_frame _)

theorem movedNotice_frame (s : State) : BlockFrame s (movedNotice s) := by
  have hadvance : BlockFrame s (advanceScan s) := rfl
  simp only [movedNotice]
  split
  · split
    · split
      · exact hadvance.trans (finishVictim_frame _)
      · exact hadvance
    · exact hadvance
  · exact hadvance

theorem takeSlot_frame (b : BlockRef) (n : Nat) (s : State) : BlockFrame s (takeSlot b n s) := by
  simp only [takeSlot]
  split
  · exact ((modifyRecord_frame ..).withBlocks _).trans (evaluateTriggers_frame _)
  · exact (modifyRecord_frame ..).withBlocks _

/-- `t` is `s` but for the block manager, the bank controllers and reserve hold. -/
def ReserveFrame (s t : State) : Prop :=
  t = { s with blocks := t.blocks, bankA := t.bankA, bankB := t.bankB
               mover := { s.mover with reserveHold := t.mover.reserveHold } }

theorem BlockFrame.reserveFrame {s t : State} (h : BlockFrame s t) : ReserveFrame s t := by
  rw [h]; rfl

namespace ReserveFrame

variable {s t u : State}

theorem trans (hst : ReserveFrame s t) (htu : ReserveFrame t u) : ReserveFrame s u := by
  unfold ReserveFrame at *
  rw [htu, hst]

theorem pins (h : ReserveFrame s t) : t.pins = s.pins := by rw [h]
theorem service (h : ReserveFrame s t) : t.service = s.service := by rw [h]
theorem drain (h : ReserveFrame s t) : t.drain = s.drain := by rw [h]
theorem port (h : ReserveFrame s t) : t.port = s.port := by rw [h]
theorem staging (h : ReserveFrame s t) : t.staging = s.staging := by rw [h]
theorem pageMap (h : ReserveFrame s t) : t.pageMap = s.pageMap := by rw [h]
theorem activity (h : ReserveFrame s t) : t.mover.activity = s.mover.activity := by rw [h]
theorem engine (h : ReserveFrame s t) : t.engine = s.engine := by rw [h]
theorem mgmt (h : ReserveFrame s t) : t.mgmt = s.mgmt := by rw [h]

end ReserveFrame

theorem setReserveHold_frame (s : State) (x : Bool) : ReserveFrame s (s.setReserveHold x) := rfl

theorem takeBlock_frame (b : BlockRef) (r : BlockRecord) (s : State) : ReserveFrame s (takeBlock b r s) :=
  (((modifyRecord_frame ..).withBlocks _).reserveFrame.trans (setReserveHold_frame ..)).trans
    ((evaluateTriggers_frame _).trans (handOver_oneBank ..).frame.blockFrame).reserveFrame

theorem slotRequest_frame (q : Requester) (s : State) : ReserveFrame s (slotRequest q s).2 := by
  unfold slotRequest
  split
  · exact (takeSlot_frame ..).reserveFrame
  · split
    · split
      · exact takeBlock_frame ..
      · exact (BlockFrame.refl s).reserveFrame
    · exact (BlockFrame.refl s).reserveFrame

theorem freshPassed_frame (b : BlockRef) (s : State) : ReserveFrame s (freshPassed b s) := by
  have hrest : ∀ u, BlockFrame u (serveErases (evaluateTriggers u)) := fun u =>
    (evaluateTriggers_frame u).trans (serveErases_frame _)
  simp only [freshPassed]
  refine ReserveFrame.trans ?_ (hrest _).reserveFrame
  split
  · exact (modifyRecord_frame ..).reserveFrame.trans (setReserveHold_frame ..)
  · exact (modifyRecord_frame ..).reserveFrame

end Sys2Proof.Machine
end

section
/-! SUPPORT. The commit queue (R37) under the staging buffer's operations: it keeps holding exactly the CLOSED entries,
each once, and no operation outside a commit's own end changes a COMMITTING entry's state. -/

-- In order: as one text the package would start more threads than memory has stacks for.
set_option Elab.async false

namespace Sys2Proof.Machine

/-- The commit queue holds exactly the CLOSED entries, each once (R37). -/
def State.QueueOk (s : State) : Prop :=
  s.staging.queue.Nodup ∧ ∀ i, i ∈ s.staging.queue ↔ (s.entry i).state = .closed

/-- From `s` to `t` the queue stays in order and every COMMITTING entry stays COMMITTING. -/
structure KeepsQueue (s t : State) : Prop where
  ok : s.QueueOk → t.QueueOk
  committing : ∀ i, (s.entry i).state = .committing → (t.entry i).state = .committing

namespace KeepsQueue

theorem refl (s : State) : KeepsQueue s s := ⟨id, fun _ => id⟩

theorem trans {s t u : State} (hst : KeepsQueue s t) (htu : KeepsQueue t u) : KeepsQueue s u :=
  ⟨fun h => htu.ok (hst.ok h), fun i h => htu.committing i (hst.committing i h)⟩

theorem of_staging {s t : State} (h : t.staging = s.staging) : KeepsQueue s t := by
  have hentry : ∀ i, t.entry i = s.entry i := fun i => by rw [State.entry, State.entry, h]
  refine ⟨fun hs => ?_, fun i hi => by rwa [hentry]⟩
  simp only [State.QueueOk, hentry, h]
  exact hs

end KeepsQueue

/-! ## One entry changed -/

theorem entry_setEntry_eq (s : State) (i j : Fin 8) (e : Entry) :
    (s.setEntry i e).entry j = if j = i then e else s.entry j := by
  split
  case isTrue h => rw [h, entry_setEntry]
  case isFalse h => exact entry_setEntry_ne s e h

/-- An entry that is not CLOSED before and after is not in the queue before and after. -/
theorem queueOk_setEntry {s : State} {i : Fin 8} {e : Entry} (hold : (s.entry i).state ≠ .closed)
    (hnew : e.state ≠ .closed) (h : s.QueueOk) : (s.setEntry i e).QueueOk := by
  obtain ⟨hnodup, hmem⟩ := h
  refine ⟨hnodup, fun j => ?_⟩
  rw [entry_setEntry_eq]
  split
  case isTrue hj => rw [hj]; exact ⟨fun hq => absurd ((hmem i).mp hq) hold, fun hc => absurd hc hnew⟩
  case isFalse => exact hmem j

/-- An entry keeps its state, whatever else of it changes. -/
theorem setEntry_keepsQueue {s : State} {i : Fin 8} {e : Entry} (h : e.state = (s.entry i).state) :
    KeepsQueue s (s.setEntry i e) := by
  have hstate : ∀ j, ((s.setEntry i e).entry j).state = (s.entry j).state := by
    intro j
    rw [entry_setEntry_eq]
    split
    case isTrue hj => rw [h, hj]
    case isFalse => rfl
  refine ⟨fun hs => ⟨hs.1, fun j => ?_⟩, fun j hj => (hstate j).trans hj⟩
  rw [hstate]
  exact hs.2 j

/-- An entry that is neither CLOSED nor COMMITTING takes another state but CLOSED. -/
theorem setEntry_keepsQueue_of_free {s : State} {i : Fin 8} {e : Entry} (hclosed : (s.entry i).state ≠ .closed)
    (hcommitting : (s.entry i).state ≠ .committing) (hnew : e.state ≠ .closed) : KeepsQueue s (s.setEntry i e) := by
  refine ⟨queueOk_setEntry hclosed hnew, fun j hj => ?_⟩
  have hne : j ≠ i := fun heq => hcommitting (heq ▸ hj)
  rwa [entry_setEntry_ne s e hne]

/-- An entry that is not CLOSED becomes so and joins the queue, at either end (R35, R39, R41). -/
theorem queueOk_close {s : State} {i : Fin 8} {e : Entry} {q : List (Fin 8)} (hold : (s.entry i).state ≠ .closed)
    (hnew : e.state = .closed) (hq : q = s.staging.queue ++ [i] ∨ q = i :: s.staging.queue) (h : s.QueueOk) :
    ((s.setEntry i e).setQueue q).QueueOk := by
  obtain ⟨hnodup, hmem⟩ := h
  have hout : i ∉ s.staging.queue := fun hi => hold ((hmem i).mp hi)
  have hperm : q.Perm (i :: s.staging.queue) := by
    rcases hq with rfl | rfl
    · exact List.perm_append_singleton i _
    · exact List.Perm.refl _
  refine ⟨hperm.nodup_iff.mpr (List.nodup_cons.mpr ⟨hout, hnodup⟩), fun j => ?_⟩
  show j ∈ q ↔ _
  rw [hperm.mem_iff, List.mem_cons, entry_setQueue, entry_setEntry_eq, hmem]
  split
  case isTrue hj => simp [hj, hnew]
  case isFalse hj => simp [hj]

/-! ## The operations -/

theorem closeEntry_of_gathering {s : State} {i : Fin 8} (h : (s.entry i).state = .gathering) :
    closeEntry i s = s.withClosed i := by
  simp [closeEntry, State.withClosed, h]

theorem closeEntry_of_not_gathering {s : State} {i : Fin 8} (h : (s.entry i).state ≠ .gathering) :
    closeEntry i s = s := by
  simp [closeEntry, h]

theorem closeEntry_keepsQueue (i : Fin 8) (s : State) : KeepsQueue s (closeEntry i s) := by
  by_cases h : (s.entry i).state = .gathering
  · rw [closeEntry_of_gathering h]
    refine ⟨queueOk_close (by simp [h]) rfl (.inl rfl), fun j hj => ?_⟩
    have hne : j ≠ i := fun heq => by simp [heq, h] at hj
    rwa [State.withClosed, entry_setQueue, entry_setEntry_ne s _ hne]
  · rw [closeEntry_of_not_gathering h]
    exact .refl s

theorem closeAll_keepsQueue (s : State) : KeepsQueue s (closeAll s) :=
  List.foldlRecOn (motive := KeepsQueue s) s.gatheringInOrder _ (.refl s)
    fun _ ht i _ => ht.trans (closeEntry_keepsQueue i _)

theorem completeCycle_staging (fault : Bool) (data : Option HalfWord) (s : State) :
    (completeCycle fault data s).staging = s.staging := by
  unfold completeCycle; split <;> rfl

theorem refuseHeld_staging (s : State) : (refuseHeld s).staging = s.staging := by
  unfold refuseHeld
  split
  · exact completeCycle_staging true none s
  · rfl

theorem refuseHeld_keepsQueue (s : State) : KeepsQueue s (refuseHeld s) := .of_staging (refuseHeld_staging s)

theorem mergeWrite_keepsQueue (i : Fin 8) (o : Nat) (lower upper : Bool) (data : HalfWord) (s : State) :
    KeepsQueue s (mergeWrite i o lower upper data s) := by
  have hmerge : ∀ e : Entry, e.state = (s.entry i).state →
      KeepsQueue s (completeCycle false none ((s.setEntry i e).bump .hostWrites)) := fun e he =>
    (setEntry_keepsQueue he).trans (.of_staging (completeCycle_staging false none _))
  simp only [mergeWrite]
  split
  · exact .trans (hmerge (mergedEntry _ _ o lower upper data) rfl) (closeEntry_keepsQueue i _)
  · exact hmerge _ rfl

/-- The entry that a search finds has the property searched for. -/
theorem findEntry_some {s : State} {p : Entry → Bool} {i : Fin 8} (h : s.findEntry p = some i) :
    p (s.entry i) = true := by
  have := List.find?_some h
  exact this

theorem findEntry_eq_none_iff {s : State} {p : Entry → Bool} :
    s.findEntry p = none ↔ ∀ i, p (s.entry i) = false := by
  simp only [State.findEntry, List.find?_eq_none, Bool.not_eq_true]
  exact ⟨fun h i => h i (mem_entryNumbers i), fun h i _ => h i⟩

theorem state_of_emptyEntry {s : State} {i : Fin 8} (h : s.emptyEntry = some i) : (s.entry i).state = .empty := by
  simpa using findEntry_some h

theorem openEntry_keepsQueue {s : State} {i : Fin 8} (page : Nat) (h : (s.entry i).state = .empty) :
    KeepsQueue s (openEntry i page s) := by
  have hopen : KeepsQueue s (s.setEntry i
      { state := .gathering, page := some page, staged := [], openSeq := s.staging.nextOpen
        idle := if s.mgmt.params.commitDelay = 0 then none else some s.mgmt.params.commitDelay
        age := some (1000 * s.mgmt.params.ageLimit), attempts := 0, cohort := false }) :=
    setEntry_keepsQueue_of_free (by simp [h]) (by simp [h]) (by simp)
  exact ⟨fun hs => hopen.ok hs, fun j hj => hopen.committing j hj⟩

theorem absorbWrite_keepsQueue {s t : State} {c : Cycle} (h : absorbWrite c s = some t) : KeepsQueue s t := by
  simp only [absorbWrite] at h
  split at h
  case h_1 => obtain rfl := Option.some.inj h; exact mergeWrite_keepsQueue ..
  case h_2 =>
    split at h
    case h_1 i hempty =>
      obtain rfl := Option.some.inj h
      exact (openEntry_keepsQueue _ (state_of_emptyEntry hempty)).trans (mergeWrite_keepsQueue ..)
    case h_2 => cases h

theorem evictOldest_keepsQueue (s : State) : KeepsQueue s (evictOldest s) := by
  unfold evictOldest
  split
  · exact closeEntry_keepsQueue ..
  · exact .refl s

theorem handWrite_keepsQueue (c : Cycle) (s : State) : KeepsQueue s (handWrite c s) := by
  unfold handWrite
  split
  case h_1 habsorbed => exact absorbWrite_keepsQueue habsorbed
  case h_2 => exact (evictOldest_keepsQueue s).trans (.of_staging rfl)

theorem retryHeld_keepsQueue (s : State) : KeepsQueue s (retryHeld s) := by
  unfold retryHeld
  split
  case h_1 c _ =>
    cases habsorbed : absorbWrite c s with
    | none => exact .refl s
    | some t => exact absorbWrite_keepsQueue habsorbed
  case h_2 => exact .refl s

theorem resumeEntry_keepsQueue (s : State) : KeepsQueue s (resumeEntry s) := by
  unfold resumeEntry
  split
  case h_1 i hfound =>
    have hstuck : (s.entry i).state = .stuck := by simpa using findEntry_some hfound
    refine ⟨queueOk_close (by simp [hstuck]) rfl (.inr rfl), fun j hj => ?_⟩
    have hne : j ≠ i := fun heq => by simp [heq, hstuck] at hj
    rwa [entry_setQueue, entry_setEntry_ne s _ hne]
  case h_2 => exact .refl s

/-- The staging buffer with every entry that is not EMPTY marked for the flush (R44). -/
def State.marked (s : State) : State :=
  { s with staging := { s.staging with
      entries := s.staging.entries.map fun e => if e.state = .empty then e else { e with cohort := true } } }

theorem entry_marked (s : State) (i : Fin 8) :
    s.marked.entry i = if (s.entry i).state = .empty then s.entry i else { s.entry i with cohort := true } :=
  Vector.getElem_map _ i.isLt

theorem marked_keepsQueue (s : State) : KeepsQueue s s.marked := by
  have hstate : ∀ i, (s.marked.entry i).state = (s.entry i).state := fun i => by rw [entry_marked]; split <;> rfl
  refine ⟨fun hs => ⟨hs.1, fun i => ?_⟩, fun i hi => (hstate i).trans hi⟩
  rw [hstate]
  exact hs.2 i

theorem flushStaging_eq (s : State) : flushStaging s =
    if (closeAll s.marked).flushPending then closeAll s.marked else (closeAll s.marked).setFlag .flushDone := rfl

theorem flushStaging_keepsQueue (s : State) : KeepsQueue s (flushStaging s) := by
  have hclose := (marked_keepsQueue s).trans (closeAll_keepsQueue s.marked)
  rw [flushStaging_eq]
  split
  · exact hclose
  · exact hclose.trans (.of_staging rfl)

theorem addCause_keepsQueue (c : Cause) (s : State) : KeepsQueue s (addCause c s) := by
  simp only [addCause]
  split
  · exact .of_staging rfl
  · split
    · refine .trans ?_ (refuseHeld_keepsQueue _)
      refine .trans ?_ (closeAll_keepsQueue _)
      exact .of_staging rfl
    · exact .of_staging rfl

theorem startDrain_keepsQueue (s : State) : KeepsQueue s (startDrain s) := by
  refine .trans (t := refuseHeld (closeAll (setReturn (some .active) (s.setService .draining)))) ?_ (.of_staging rfl)
  refine .trans ?_ (refuseHeld_keepsQueue _)
  refine .trans ?_ (closeAll_keepsQueue _)
  exact .of_staging rfl

end Sys2Proof.Machine
end

section
/-! SUPPORT. The commit queue (R37 to R39) under the page mover's operations: the commit in progress has its entry
COMMITTING until the operation that ends it, defers it or leaves it STUCK. -/

-- In order: as one text the package would start more threads than memory has stacks for.
set_option Elab.async false

namespace Sys2Proof.Machine

/-- The queue is in order, and the entry of this operation, if it is a commit, is COMMITTING (R37 to R39). -/
def CommitsAt (r : OpRecord) (s : State) : Prop :=
  s.QueueOk ∧ ∀ i p, r.kind = .commit i p → (s.entry i).state = .committing

theorem CommitsAt.keeps {r : OpRecord} {s t : State} (h : CommitsAt r s) (hst : KeepsQueue s t) : CommitsAt r t :=
  ⟨hst.ok h.1, fun i p hk => hst.committing i (h.2 i p hk)⟩

theorem CommitsAt.of_kind {r r' : OpRecord} {s : State} (h : CommitsAt r s) (hk : r'.kind = r.kind) :
    CommitsAt r' s := ⟨h.1, fun i p hr => h.2 i p (hk ▸ hr)⟩

/-- An operation that is no commit asks for the queue's order alone. -/
theorem CommitsAt.of_move {r : OpRecord} {s : State} {n : Nat} (h : s.QueueOk) (hk : r.kind = .move n) :
    CommitsAt r s := ⟨h, fun i p hr => by rw [hk] at hr; cases hr⟩

theorem queueInv_iff (s : State) :
    s.QueueInv ↔ s.QueueOk ∧ ∀ r, s.mover.activity = .running r → CommitsAt r s := by
  constructor
  · rintro ⟨hnodup, hmem, hrun⟩
    exact ⟨⟨hnodup, hmem⟩, fun r hr => ⟨⟨hnodup, hmem⟩, fun i p hk => hrun r i p hr hk⟩⟩
  · rintro ⟨⟨hnodup, hmem⟩, hrun⟩
    exact ⟨hnodup, hmem, fun r i p hr hk => (hrun r hr).2 i p hk⟩

theorem State.QueueInv.ok {s : State} (h : s.QueueInv) : s.QueueOk := ((queueInv_iff s).mp h).1

theorem State.QueueInv.commitsAt {s : State} {r : OpRecord} (h : s.QueueInv) (hr : s.mover.activity = .running r) :
    CommitsAt r s := ((queueInv_iff s).mp h).2 r hr

theorem State.QueueInv.keeps {s t : State} (h : s.QueueInv) (hst : KeepsQueue s t)
    (hact : t.mover.activity = s.mover.activity) : t.QueueInv :=
  (queueInv_iff t).mpr ⟨hst.ok h.ok, fun _ hr => (h.commitsAt (hact ▸ hr)).keeps hst⟩

theorem State.QueueInv.congr {s t : State} (h : s.QueueInv) (hst : t.staging = s.staging)
    (hact : t.mover.activity = s.mover.activity) : t.QueueInv := h.keeps (.of_staging hst) hact

/-- With no operation in progress the queue's order is all. -/
theorem queueInv_of_not_running {s : State} (h : s.QueueOk) (hact : ∀ r, s.mover.activity ≠ .running r) :
    s.QueueInv := (queueInv_iff s).mpr ⟨h, fun r hr => absurd hr (hact r)⟩

theorem queueInv_of_running {s : State} {r : OpRecord} (h : CommitsAt r s) (hact : s.mover.activity = .running r) :
    s.QueueInv := (queueInv_iff s).mpr ⟨h.1, fun r' hr => by rw [hact] at hr; cases hr; exact h⟩

theorem setActivity_idle_queueInv {s : State} (h : s.QueueOk) : (s.setActivity .idle).QueueInv :=
  queueInv_of_not_running h nofun

theorem queueInv_of_bankFrame {s t : State} (h : s.QueueInv) (hst : BankFrame s t) : t.QueueInv :=
  h.congr hst.staging (congrArg Mover.activity hst.mover)

theorem queueInv_of_blockFrame {s t : State} (h : s.QueueInv) (hst : BlockFrame s t) : t.QueueInv :=
  h.congr hst.staging (congrArg Mover.activity hst.mover)

/-! ## Requests -/

theorem moverAsks_staging (r : OpRecord) (p : Phase) (bk : BankId) (op : ReqOp) (s : State) :
    (moverAsks r p bk op s).staging = s.staging := by simp [moverAsks, handOver]

theorem moverAsks_activity (r : OpRecord) (p : Phase) (bk : BankId) (op : ReqOp) (s : State) :
    (moverAsks r p bk op s).mover.activity = .running { r with phase := p } := by simp [moverAsks]

theorem moverAsks_queueInv {r : OpRecord} (p : Phase) (bk : BankId) (op : ReqOp) {s : State} (h : CommitsAt r s) :
    (moverAsks r p bk op s).QueueInv :=
  queueInv_of_running (r := { r with phase := p }) ((h.keeps (.of_staging (moverAsks_staging r p bk op s))).of_kind rfl)
    (moverAsks_activity r p bk op s)

/-! ## Ends of an operation -/

theorem releaseEntry_queueOk {i : Fin 8} {s : State} (h : s.QueueOk) (hi : (s.entry i).state = .committing) :
    (releaseEntry i s).QueueOk := by
  have hblank : (s.setEntry i Entry.blank).QueueOk := queueOk_setEntry (by simp [hi]) (by simp [Entry.blank]) h
  simp only [releaseEntry]
  refine (retryHeld_keepsQueue _).ok ?_
  split
  · exact hblank
  · exact hblank

theorem endCommit_queueInv {i : Fin 8} (c : Counter) {s : State} (h : s.QueueOk)
    (hi : (s.entry i).state = .committing) : (endCommit i c s).QueueInv :=
  setActivity_idle_queueInv (releaseEntry_queueOk (s := s.bump c) h hi)

theorem deferCommit_queueInv {i : Fin 8} {s : State} (h : s.QueueOk) (hi : (s.entry i).state = .committing) :
    (deferCommit i s).QueueInv :=
  setActivity_idle_queueInv (s := (deferEntry i s).setReserveHold true)
    (queueOk_close (by simp [hi]) rfl (.inr rfl) h)

theorem stickCommit_queueInv {i : Fin 8} {s : State} (h : s.QueueOk) (hi : (s.entry i).state = .committing) :
    (stickCommit i s).QueueInv := by
  have hstuck : (s.setEntry i { s.entry i with state := .stuck }).QueueOk :=
    queueOk_setEntry (by simp [hi]) (by simp) h
  exact setActivity_idle_queueInv (s := (addCause .commitStuck _).setFlag .commitFailed)
    ((addCause_keepsQueue .commitStuck _).ok hstuck)

theorem haltReclaim_queueInv {s : State} (h : s.QueueOk) : (haltReclaim s).QueueInv :=
  setActivity_idle_queueInv (s := (addCause .reclaimHalted s).setReserveHold false)
    ((addCause_keepsQueue .reclaimHalted s).ok h)

theorem noSlot_queueInv {r : OpRecord} {s : State} (h : CommitsAt r s) : (noSlot r s).QueueInv := by
  unfold noSlot
  split
  case h_1 i p hk =>
    split
    · exact deferCommit_queueInv h.1 (h.2 i p hk)
    · exact stickCommit_queueInv h.1 (h.2 i p hk)
  case h_2 => exact haltReclaim_queueInv h.1

theorem seekSlot_queueInv {r : OpRecord} {s : State} (h : CommitsAt r s) : (seekSlot r s).QueueInv := by
  have hframe := (slotRequest_frame r.requester s).staging
  unfold seekSlot
  split
  case h_1 n s1 hanswer =>
    rw [hanswer] at hframe
    exact moverAsks_queueInv _ _ _ ((h.keeps (.of_staging hframe)).of_kind rfl)
  case h_2 s1 hanswer =>
    rw [hanswer] at hframe
    exact queueInv_of_running (r := { r with newSlot := none, phase := .awaitInUse })
      ((h.keeps (.of_staging hframe)).of_kind rfl) rfl
  case h_3 s1 hanswer =>
    rw [hanswer] at hframe
    exact noSlot_queueInv (h.keeps (.of_staging hframe))

theorem endWrite_queueInv {r : OpRecord} {s : State} (h : CommitsAt r s) : (endWrite r s).QueueInv := by
  unfold endWrite
  split
  case h_1 i p hk => exact endCommit_queueInv _ h.1 (h.2 i p hk)
  case h_2 =>
    exact setActivity_idle_queueInv ((KeepsQueue.of_staging (movedNotice_frame (s.bump .reclaimMoves)).staging).ok h.1)

/-! ## Steps of an operation -/

theorem writeData_queueInv {r : OpRecord} (n : SlotRef) (hw : Nat) {s : State} (h : CommitsAt r s) :
    (writeData r n hw s).QueueInv := by
  unfold writeData
  split <;> exact moverAsks_queueInv _ _ _ h

theorem writeInPlace_queueInv {r : OpRecord} {i : Fin 8} {p : Bool} (src : SlotRef) (hw : Nat) {s : State}
    (h : CommitsAt r s) (hk : r.kind = .commit i p) : (writeInPlace r i src hw s).QueueInv := by
  unfold writeInPlace
  split
  · exact moverAsks_queueInv _ _ _ h
  · exact endCommit_queueInv _ h.1 (h.2 i p hk)

theorem condemn_keepsQueue (b : BlockRef) (s : State) : KeepsQueue s (condemn b s) :=
  .of_staging (condemn_frame b s).staging

theorem afterFailedAttempt_queueInv {r : OpRecord} (n : SlotRef) {s : State} (h : CommitsAt r s) :
    (afterFailedAttempt r n s).QueueInv := by
  have hcondemn := h.keeps (condemn_keepsQueue n.block s)
  simp only [afterFailedAttempt]
  split
  case h_1 i p hk =>
    have hcount := hcondemn.keeps (setEntry_keepsQueue (i := i)
      (e := { (condemn n.block s).entry i with attempts := ((condemn n.block s).entry i).attempts + 1 }) rfl)
    split
    · exact seekSlot_queueInv hcount
    · exact stickCommit_queueInv hcount.1 (hcount.2 i p hk)
  case h_2 =>
    split
    · exact seekSlot_queueInv (.of_move hcondemn.1 rfl)
    · exact haltReclaim_queueInv hcondemn.1

theorem mapUpdate_queueInv {r : OpRecord} (n : SlotRef) {s : State} (h : CommitsAt r s) :
    (mapUpdate r n s).QueueInv := by
  unfold mapUpdate
  dsimp only
  split
  case h_1 old _ =>
    refine queueInv_of_blockFrame (queueInv_of_blockFrame ?_ (livePlus_frame _ _)) (liveMinus_frame _ _ _)
    exact moverAsks_queueInv _ _ _ (h.keeps (.of_staging rfl))
  case h_2 =>
    exact endWrite_queueInv ((h.keeps (.of_staging rfl)).keeps (.of_staging (livePlus_frame n.block _).staging))

theorem decideCommit_queueInv {r : OpRecord} {i : Fin 8} {p : Bool} {s : State} (h : CommitsAt r s)
    (hk : r.kind = .commit i p) : (decideCommit r i s).QueueInv := by
  unfold decideCommit
  split
  · exact endCommit_queueInv _ h.1 (h.2 i p hk)
  · split
    · exact writeInPlace_queueInv _ _ h hk
    · exact seekSlot_queueInv h

/-- R38: the head of the queue leaves it as it becomes COMMITTING. -/
theorem startEntry_queueOk {i : Fin 8} {rest : List (Fin 8)} {s : State} (h : s.QueueOk)
    (hq : s.staging.queue = i :: rest) : (startEntry i s).QueueOk := by
  obtain ⟨hnodup, hmem⟩ := h
  rw [hq, List.nodup_cons] at hnodup
  obtain ⟨hout, hnodup⟩ := hnodup
  have hqueue : (startEntry i s).staging.queue = rest := by simp [startEntry, hq]
  refine ⟨hqueue ▸ hnodup, fun j => ?_⟩
  rw [hqueue, startEntry, entry_setQueue, entry_setEntry_eq]
  split
  case isTrue hj => rw [hj]; simp [hout]
  case isFalse hj => rw [← hmem, hq, List.mem_cons]; simp [hj]

theorem startCommit_queueInv {i : Fin 8} {rest : List (Fin 8)} {s : State} (h : s.QueueOk)
    (hq : s.staging.queue = i :: rest) : (startCommit i s).QueueInv := by
  have hstart : (startEntry i s).QueueOk := startEntry_queueOk h hq
  have hcommitting : ((startEntry i s).entry i).state = .committing := by simp [startEntry]
  have hat : ∀ r : OpRecord, ∀ p, r.kind = .commit i p → CommitsAt r (startEntry i s) := fun r p hk =>
    ⟨hstart, fun j q hj => by rw [hk] at hj; cases hj; exact hcommitting⟩
  simp only [startCommit]
  split
  case h_1 => exact moverAsks_queueInv _ _ _ ((hat _ _ rfl).keeps (.of_staging rfl))
  case h_2 => exact decideCommit_queueInv ((hat _ _ rfl).keeps (.of_staging rfl)) rfl

theorem scanNext_queueInv {s : State} (h : s.QueueOk) : (scanNext s).QueueInv := by
  unfold scanNext
  split
  · split
    · refine queueInv_of_not_running ((KeepsQueue.of_staging ?_).ok h) fun r hr => ?_
      · rw [(handOver_oneBank ..).frame.staging]; rfl
      · rw [handOver_mover] at hr; cases hr
    · exact queueInv_of_blockFrame (setActivity_idle_queueInv h) (finishVictim_frame _)
  · exact setActivity_idle_queueInv h

theorem scanEntry_queueInv (bytes : List Byte) {s : State} (h : s.QueueOk) : (scanEntry bytes s).QueueInv := by
  unfold scanEntry
  split
  case h_1 =>
    dsimp only
    split
    · exact moverAsks_queueInv _ _ _ (.of_move h rfl)
    · exact scanNext_queueInv h
  case h_2 => exact setActivity_idle_queueInv h

/-! ## Completions and grants -/

theorem moverReadDone_queueInv (bytes : List Byte) {s : State} (h : s.QueueInv) : (moverReadDone bytes s).QueueInv := by
  unfold moverReadDone
  split
  case h_1 => exact h
  case h_2 => exact scanEntry_queueInv bytes h.ok
  case h_3 r hr =>
    have hat : CommitsAt r (fillBuffer bytes s) := (h.commitsAt hr).keeps (.of_staging rfl)
    split
    case h_1 i p _ hk => exact decideCommit_queueInv hat hk
    case h_2 => exact seekSlot_queueInv hat
    case h_3 => exact h

theorem moverProgramDone_queueInv (pass : Bool) {s : State} (h : s.QueueInv) : (moverProgramDone pass s).QueueInv := by
  unfold moverProgramDone
  split
  case h_1 => exact h
  case h_2 => exact h
  case h_3 r hr =>
    have hat : CommitsAt r s := h.commitsAt hr
    split
    case h_1 =>
      split
      case h_1 i p hk =>
        split
        · exact writeInPlace_queueInv _ _ hat hk
        · exact seekSlot_queueInv (hat.keeps (condemn_keepsQueue ..))
      case h_2 => exact h
    case h_2 => split <;> exact moverAsks_queueInv _ _ _ hat
    case h_3 =>
      split
      · exact writeData_queueInv _ _ hat
      · exact moverAsks_queueInv _ _ _ hat
    case h_4 =>
      split
      · exact writeData_queueInv _ _ hat
      · exact moverAsks_queueInv _ _ _ hat
    case h_5 =>
      split
      · exact mapUpdate_queueInv _ hat
      · exact moverAsks_queueInv _ _ _ hat
    case h_6 => exact afterFailedAttempt_queueInv _ hat
    case h_7 =>
      split
      · exact endWrite_queueInv hat
      · exact endWrite_queueInv (hat.keeps (condemn_keepsQueue ..))
    case h_8 => exact h

theorem inUseDone_queueInv (b : BlockRef) (pass : Bool) {s : State} (h : s.QueueInv) :
    (inUseDone b pass s).QueueInv := by
  unfold inUseDone
  split
  case h_1 => exact h
  case h_2 => exact h
  case h_3 r hr =>
    split
    · split
      · exact seekSlot_queueInv (h.commitsAt hr)
      · exact seekSlot_queueInv ((h.commitsAt hr).keeps (condemn_keepsQueue ..))
    · exact h

theorem grantOnce_queueInv {s : State} (h : s.QueueInv) : (grantOnce s).QueueInv := by
  unfold grantOnce
  split
  case isTrue =>
    split
    case h_1 i rest _ hq => exact startCommit_queueInv (s := noteGrant .commit s) h.ok hq
    case h_2 => exact scanNext_queueInv (s := noteGrant .move s) h.ok
    case h_3 => exact h
  case isFalse => exact h

theorem arbitrate_queueInv (n : Nat) {s : State} (h : s.QueueInv) : (arbitrate n s).QueueInv := by
  induction n generalizing s with
  | zero => exact h
  | succ n ih =>
    unfold arbitrate
    split
    · exact ih (grantOnce_queueInv h)
    · exact h

theorem settle_queueInv {s : State} (h : s.QueueInv) : (settle s).QueueInv :=
  queueInv_of_blockFrame (arbitrate_queueInv 32 h) (kickBanks_frame _).blockFrame

end Sys2Proof.Machine
end

section
/-! SUPPORT. The frame of the volume engine: its steps change its own work and hand requests to the banks. -/

-- In order: as one text the package would start more threads than memory has stacks for.
set_option Elab.async false

namespace Sys2Proof.Machine

/-- `t` is `s` but for the volume engine's work and the bank controllers. -/
def EngineFrame (s t : State) : Prop := t = { s with engine := t.engine, bankA := t.bankA, bankB := t.bankB }

theorem BankFrame.engineFrame {s t : State} (h : BankFrame s t) : EngineFrame s t := by rw [h]; rfl

namespace EngineFrame

variable {s t u : State}

theorem refl (s : State) : EngineFrame s s := rfl

theorem trans (hst : EngineFrame s t) (htu : EngineFrame t u) : EngineFrame s u := by
  unfold EngineFrame at *
  rw [htu, hst]

theorem pins (h : EngineFrame s t) : t.pins = s.pins := by rw [h]
theorem service (h : EngineFrame s t) : t.service = s.service := by rw [h]
theorem drain (h : EngineFrame s t) : t.drain = s.drain := by rw [h]
theorem port (h : EngineFrame s t) : t.port = s.port := by rw [h]
theorem staging (h : EngineFrame s t) : t.staging = s.staging := by rw [h]
theorem pageMap (h : EngineFrame s t) : t.pageMap = s.pageMap := by rw [h]
theorem mover (h : EngineFrame s t) : t.mover = s.mover := by rw [h]
theorem blocks (h : EngineFrame s t) : t.blocks = s.blocks := by rw [h]
theorem flashA (h : EngineFrame s t) : t.flashA = s.flashA := by rw [h]
theorem flashB (h : EngineFrame s t) : t.flashB = s.flashB := by rw [h]
theorem mgmt (h : EngineFrame s t) : t.mgmt = s.mgmt := by rw [h]

end EngineFrame

theorem setEngine_frame (s : State) (x : Engine) : EngineFrame s (s.setEngine x) := rfl

/-- The engine notes its work and hands a request to a bank. -/
theorem handOver_setEngine_frame (bk : BankId) (c : ReqClass) (op : ReqOp) (s : State) (x : Engine) :
    EngineFrame s (handOver bk c op (s.setEngine x)) :=
  (setEngine_frame s x).trans (handOver_oneBank bk c op _).frame.engineFrame

theorem handErase_setEngine_frame (r : EraseRequest) (s : State) (x : Engine) :
    EngineFrame s (handErase r (s.setEngine x)) :=
  (setEngine_frame s x).trans (handErase_oneBank r _).frame.engineFrame

/-! ## Mount -/

theorem beginBankReset_oneBank (bk : BankId) (s : State) : OneBank bk s (beginBankReset bk s) := setBank_oneBank ..

theorem beginMount_frame (s : State) : EngineFrame s (beginMount s) := by
  unfold beginMount
  dsimp only
  split
  · exact ((setEngine_frame ..).trans (beginBankReset_oneBank .a _).frame.engineFrame).trans
      (beginBankReset_oneBank .b _).frame.engineFrame
  · exact (setEngine_frame ..).trans (beginBankReset_oneBank .a _).frame.engineFrame

theorem startScan_frame (bk : BankId) (w : MountWork) (s : State) : EngineFrame s (startScan bk w s) := by
  unfold startScan
  split
  · exact setEngine_frame ..
  · exact handOver_setEngine_frame ..

theorem mountResetDone_frame (bk : BankId) (w : MountWork) (s : State) : EngineFrame s (mountResetDone bk w s) := by
  unfold mountResetDone
  split
  · exact handOver_setEngine_frame ..
  · split
    · exact startScan_frame ..
    · exact setEngine_frame ..
  · exact .refl s

theorem mountBlockRead_frame (bk : BankId) (b : BlockRef) (rest : List BlockRef) (bytes : List Byte) (w : MountWork)
    (s : State) : EngineFrame s (mountBlockRead bk b rest bytes w s) := by
  unfold mountBlockRead
  split
  · exact setEngine_frame ..
  · exact handOver_setEngine_frame ..

theorem startRepairs_frame (bk : BankId) (slots : List SlotRef) (s : State) :
    EngineFrame s (startRepairs bk slots s) := by
  unfold startRepairs
  split
  · split
    · exact .refl s
    · split
      · exact setEngine_frame ..
      · exact handOver_setEngine_frame ..
  · exact .refl s
  · exact .refl s

theorem mountRepairDone_frame (bk : BankId) (x : SlotRef) (rest : List SlotRef) (pass : Bool) (w : MountWork)
    (s : State) : EngineFrame s (mountRepairDone bk x rest pass w s) := by
  unfold mountRepairDone
  dsimp only
  split
  · exact setEngine_frame ..
  · exact handOver_setEngine_frame ..

theorem volumeResetDone_frame (bk : BankId) (s : State) : EngineFrame s (volumeResetDone bk s) := by
  unfold volumeResetDone
  split
  · exact mountResetDone_frame ..
  · exact .refl s
  · exact .refl s

/-! ## Format -/

theorem startFormatBank_frame (bk : BankId) (s : State) : EngineFrame s (startFormatBank bk s) := by
  unfold startFormatBank
  split
  · split
    · exact .refl s
    · exact handOver_setEngine_frame ..
  · exact .refl s
  · exact .refl s

theorem formatBlockRead_frame (bk : BankId) (b : BlockRef) (rest : List BlockRef) (bytes : List Byte)
    (w : FormatWork) (s : State) : EngineFrame s (formatBlockRead bk b rest bytes w s) := by
  unfold formatBlockRead
  dsimp only
  split
  · exact handOver_setEngine_frame ..
  · split
    · exact handErase_setEngine_frame ..
    · exact setEngine_frame ..

theorem formatNext_frame (bk : BankId) (todo : List BlockRef) (w : FormatWork) (s : State) :
    EngineFrame s (formatNext bk todo w s) := by
  unfold formatNext
  split
  · exact setEngine_frame ..
  · exact handErase_setEngine_frame ..

theorem formatStartBlocks_frame (bk : BankId) (s : State) : EngineFrame s (formatStartBlocks bk s) := by
  unfold formatStartBlocks
  split
  · dsimp only
    split
    · exact .refl s
    · exact formatNext_frame ..
  · exact .refl s
  · exact .refl s

theorem formatBlockErased_frame (bk : BankId) (count : Nat) (b : BlockRef) (rest : List BlockRef) (pass : Bool)
    (w : FormatWork) (s : State) : EngineFrame s (formatBlockErased bk count b rest pass w s) := by
  unfold formatBlockErased
  split
  · exact handOver_setEngine_frame ..
  · exact handOver_setEngine_frame ..

theorem startRecord_frame (s : State) : EngineFrame s (startRecord s) := by
  unfold startRecord
  split
  · exact handOver_setEngine_frame ..
  · exact .refl s
  · exact .refl s

theorem withdrawUnbegun_oneBank (bk : BankId) (s : State) : OneBank bk s (withdrawUnbegun bk s) := setBank_oneBank ..

theorem abandonFormat_frame (s : State) : EngineFrame s (abandonFormat s) := by
  unfold abandonFormat
  split
  · exact ((setEngine_frame ..).trans (withdrawUnbegun_oneBank .a _).frame.engineFrame).trans
      (withdrawUnbegun_oneBank .b _).frame.engineFrame
  · exact .refl s
  · exact .refl s

end Sys2Proof.Machine
end

section
/-! PROOF. The commit queue (R37 to R39) under every command: the blocks' events in the order of the model's files, then
the commands. -/

-- In order: as one text the package would start more threads than memory has stacks for.
set_option Elab.async false

namespace Sys2Proof.Machine

theorem queueInv_of_engineFrame {s t : State} (h : s.QueueInv) (hst : EngineFrame s t) : t.QueueInv :=
  h.congr hst.staging (congrArg Mover.activity hst.mover)

theorem queueInv_of_reserveFrame {s t : State} (h : s.QueueInv) (hst : ReserveFrame s t) : t.QueueInv :=
  h.congr hst.staging hst.activity

theorem queueInv_of_oneBank {bk : BankId} {s t : State} (h : s.QueueInv) (hst : OneBank bk s t) : t.QueueInv :=
  queueInv_of_bankFrame h hst.frame

theorem setBank_queueInv {s : State} (bk : BankId) (k : BankCtl) (h : s.QueueInv) : (s.setBank bk k).QueueInv :=
  queueInv_of_oneBank h (setBank_oneBank ..)

theorem setFlag_queueInv {s : State} (f : Flag) (h : s.QueueInv) : (s.setFlag f).QueueInv := h.congr rfl rfl

theorem setEngine_queueInv {s : State} (x : Engine) (h : s.QueueInv) : (s.setEngine x).QueueInv := h.congr rfl rfl

theorem bump_queueInv {s : State} (c : Counter) (h : s.QueueInv) : (s.bump c).QueueInv := h.congr rfl rfl

theorem setService_queueInv {s : State} (x : ServiceState) (h : s.QueueInv) : (s.setService x).QueueInv :=
  h.congr rfl rfl

theorem setReturn_queueInv {s : State} (r : Option ReturnState) (h : s.QueueInv) : (setReturn r s).QueueInv :=
  h.congr rfl rfl

/-! ## Staging buffer and latch -/

theorem closeEntry_queueInv {s : State} (i : Fin 8) (h : s.QueueInv) : (closeEntry i s).QueueInv :=
  h.keeps (closeEntry_keepsQueue i s) (congrArg Mover.activity (closeEntry_mover s i))

theorem completeCycle_queueInv {s : State} (fault : Bool) (data : Option HalfWord) (h : s.QueueInv) :
    (completeCycle fault data s).QueueInv :=
  h.congr (completeCycle_staging ..) (congrArg Mover.activity (completeCycle_mover ..))

theorem addCause_queueInv {s : State} (c : Cause) (h : s.QueueInv) : (addCause c s).QueueInv :=
  h.keeps (addCause_keepsQueue c s) (congrArg Mover.activity (addCause_mover s c))

theorem capacityCheck_queueInv {s : State} (h : s.QueueInv) : (capacityCheck s).QueueInv := by
  unfold capacityCheck
  split
  · exact addCause_queueInv _ h
  · exact h

theorem evictOldest_mover (s : State) : (evictOldest s).mover = s.mover := by
  unfold evictOldest
  split
  · exact closeEntry_mover ..
  · rfl

theorem handWrite_queueInv {s : State} (c : Cycle) (h : s.QueueInv) : (handWrite c s).QueueInv := by
  refine h.keeps (handWrite_keepsQueue c s) (congrArg Mover.activity ?_)
  unfold handWrite
  split
  case h_1 habsorbed => exact absorbWrite_mover habsorbed
  case h_2 => exact evictOldest_mover s

/-! ## Block manager -/

theorem enterActive_queueInv {s : State} (h : s.QueueInv) : (enterActive s).QueueInv :=
  queueInv_of_blockFrame (s := s.setService .active) h ((evaluateTriggers_frame _).trans (serveErases_frame _))

theorem takeTable_queueInv {s : State} (records : List (BlockRef × BlockRecord)) (h : s.QueueInv) :
    (takeTable records s).QueueInv := by
  unfold takeTable
  exact capacityCheck_queueInv (h.congr rfl rfl)

theorem requestRetired_queueInv {s : State} (b : BlockRef) (count : Nat) (h : s.QueueInv) :
    (requestRetired b count s).QueueInv :=
  queueInv_of_oneBank h (handOver_oneBank ..)

theorem bumpIf_queueInv {s : State} (p : Bool) (c : Counter) (h : s.QueueInv) : (s.bumpIf p c).QueueInv := by
  unfold State.bumpIf
  split
  · exact h.congr rfl rfl
  · exact h

theorem takeEraseResult_queueInv {s : State} (b : BlockRef) (pass : Bool) (h : s.QueueInv) :
    (takeEraseResult b pass s).QueueInv := by
  have hcount := bumpIf_queueInv pass .erases h
  unfold takeEraseResult
  dsimp only
  split
  · exact hcount
  · have hrecord : ∀ f, ((s.bumpIf pass .erases).modifyRecord b f).QueueInv := fun f => hcount.congr rfl rfl
    split
    · exact queueInv_of_oneBank (hrecord _) (handOver_oneBank ..)
    · exact requestRetired_queueInv _ _ (hrecord _)

theorem retireBlock_queueInv {s : State} (b : BlockRef) (h : s.QueueInv) : (retireBlock b s).QueueInv := by
  refine queueInv_of_blockFrame ?_ ((evaluateTriggers_frame _).trans (serveErases_frame _))
  exact capacityCheck_queueInv (h.congr rfl rfl)

theorem takeDescriptorResult_queueInv {s : State} (b : BlockRef) (prog : DescProgram) (pass : Bool)
    (h : s.QueueInv) : (takeDescriptorResult b prog pass s).QueueInv := by
  unfold takeDescriptorResult
  split
  · exact h
  · split
    · split
      · exact queueInv_of_reserveFrame h (freshPassed_frame b s)
      · exact requestRetired_queueInv _ _ h
    · exact retireBlock_queueInv b h
    · exact h

/-! ## Host port -/

theorem completeRead_queueInv {s : State} (c : Cycle) (other : HalfWord) (h : s.QueueInv) :
    (completeRead c other s).QueueInv :=
  bump_queueInv _ (completeCycle_queueInv false _ h)

theorem askBank_queueInv {s : State} (c : Cycle) (slot : SlotRef) (h : s.QueueInv) : (askBank c slot s).QueueInv := by
  unfold askBank
  split
  · exact h.congr rfl rfl
  · exact setBank_queueInv _ _ (h.congr rfl rfl)

theorem resolveRead_queueInv {s : State} (c : Cycle) (h : s.QueueInv) : (resolveRead c s).QueueInv := by
  have hcycle : ∀ c1, (setCycle c1 s).QueueInv := fun c1 => h.congr rfl rfl
  simp only [resolveRead]
  split
  · exact completeRead_queueInv _ _ (hcycle _)
  · split
    · exact completeRead_queueInv _ _ (hcycle _)
    · exact queueInv_of_oneBank (askBank_queueInv _ _ (hcycle _)) (kickBank_oneBank _ _)

theorem hostReadDone_queueInv {s : State} (bk : BankId) (bytes : List Byte) (h : s.QueueInv) :
    (hostReadDone bk bytes s).QueueInv := by
  have hempty := setBank_queueInv bk { s.bank bk with hostRead := none } h
  simp only [hostReadDone]
  split
  · exact hempty
  · split
    · split
      · split
        · exact hempty
        · exact completeRead_queueInv _ _ hempty
      · exact hempty
    · split
      · split
        · exact askBank_queueInv _ _ hempty
        · exact hempty
      · exact hempty

theorem refuseWrite_queueInv {s : State} (h : s.QueueInv) : (refuseWrite s).QueueInv :=
  setFlag_queueInv _ (completeCycle_queueInv true none h)

theorem faultRange_queueInv {s : State} (c : Cycle) (h : s.QueueInv) : (faultRange c s).QueueInv :=
  setFlag_queueInv _ (completeCycle_queueInv true _ h)

theorem treatNoVolume_queueInv {s : State} (readFaults : Bool) (c : Cycle) (h : s.QueueInv) :
    (treatNoVolume readFaults c s).QueueInv := by
  unfold treatNoVolume
  split
  · exact completeCycle_queueInv _ _ h
  · exact refuseWrite_queueInv h
  · exact completeCycle_queueInv _ _ h

theorem treatInRange_queueInv {s : State} (c : Cycle) (h : s.QueueInv) : (treatInRange c s).QueueInv := by
  unfold treatInRange
  split
  · exact resolveRead_queueInv c h
  · split
    · unfold stageWrite
      split
      · exact completeCycle_queueInv _ _ h
      · exact settle_queueInv (handWrite_queueInv c h)
    · exact refuseWrite_queueInv h
  · exact completeCycle_queueInv _ _ h

/-- The range check decides between the fault and the treatment (R118). -/
theorem rangeChecked_queueInv {s : State} (c : Cycle) (h : s.QueueInv) :
    (if s.capacity ≤ c.page then faultRange c s else treatInRange c s).QueueInv := by
  split
  · exact faultRange_queueInv c h
  · exact treatInRange_queueInv c h

theorem treatCycle_queueInv {s : State} (c : Cycle) (h : s.QueueInv) : (treatCycle c s).QueueInv := by
  unfold treatCycle
  split
  · exact h.congr rfl rfl
  · exact treatNoVolume_queueInv _ _ h
  · exact treatNoVolume_queueInv _ _ h
  · exact rangeChecked_queueInv c h
  · exact rangeChecked_queueInv c h
  · split
    · exact rangeChecked_queueInv c h
    · exact treatNoVolume_queueInv _ _ h

theorem arrive_queueInv {s : State} (c : Cycle) (h : s.QueueInv) : (arrive c s).QueueInv := by
  have hport : ∀ p, ({ s with port := p } : State).QueueInv := fun p => h.congr rfl rfl
  simp only [arrive]
  split
  · exact completeCycle_queueInv _ _ (hport _)
  · exact treatCycle_queueInv c (hport _)
  · exact treatCycle_queueInv c (hport _)

theorem arriveFromPins_queueInv {s : State} (h : s.QueueInv) : (arriveFromPins s).QueueInv := by
  unfold arriveFromPins
  split
  · exact h
  all_goals exact arrive_queueInv _ h

theorem assertStrobes_queueInv {s : State} (x : Strobes) (h : s.QueueInv) : (assertStrobes x s).QueueInv := by
  unfold assertStrobes
  split
  · exact arriveFromPins_queueInv (h.congr rfl rfl)
  · exact h.congr rfl rfl
  · exact h
  · exact h

theorem releaseMountHold_queueInv {s : State} (h : s.QueueInv) : (releaseMountHold s).QueueInv := by
  unfold releaseMountHold
  split
  · exact treatCycle_queueInv _ h
  · exact h

theorem withdrawStrobes_queueInv {s : State} (h : s.QueueInv) : (withdrawStrobes s).QueueInv := by
  unfold withdrawStrobes
  split
  · exact h.congr rfl rfl
  · split
    · exact (queueInv_of_bankFrame h (withdrawCycleRead_frame _ s)).congr rfl rfl
    · exact h.congr rfl rfl
  · exact h.congr rfl rfl
  · exact h

theorem expireHold_queueInv {s : State} (h : s.QueueInv) : (expireHold s).QueueInv := by
  unfold expireHold
  split
  · exact bump_queueInv _ (setFlag_queueInv _
      (completeCycle_queueInv _ _ (queueInv_of_bankFrame h (withdrawCycleRead_frame _ s))))
  · exact h

/-! ## Volume engine -/

theorem endUnformatted_queueInv {s : State} (h : s.QueueInv) : (endUnformatted s).QueueInv :=
  releaseMountHold_queueInv (h.congr rfl rfl)

theorem mountRecordRead_queueInv {s : State} (bytes : List Byte) (w : MountWork) (h : s.QueueInv) :
    (mountRecordRead bytes w s).QueueInv := by
  have hserial : ∀ n, (setSerial n s).QueueInv := fun n => h.congr rfl rfl
  have hread : (if (volumeAt bytes).readable then setSerial (volumeAt bytes).serial s else s).QueueInv := by
    split
    · exact hserial _
    · exact h
  simp only [mountRecordRead]
  split
  · have hscan : ∀ u : State, u.QueueInv → ∀ w1 pages banks,
        (startScan .a w1 (setVolume pages banks u)).QueueInv := fun u hu w1 pages banks =>
      queueInv_of_engineFrame (s := setVolume pages banks u) (hu.congr rfl rfl) (startScan_frame ..)
    split
    · exact queueInv_of_engineFrame (hscan _ hread _ _ _) (startScan_frame ..)
    · exact hscan _ hread _ _ _
  · exact endUnformatted_queueInv hread

theorem chooseMount_queueInv {s : State} (h : s.QueueInv) : (chooseMount s).QueueInv := by
  unfold chooseMount
  split
  · refine queueInv_of_engineFrame (queueInv_of_engineFrame ?_ (startRepairs_frame ..)) (startRepairs_frame ..)
    exact h.congr rfl rfl
  · exact h
  · exact h

theorem assertLine_queueInv {s : State} (h : s.QueueInv) : (assertLine s).QueueInv := by
  unfold assertLine
  split
  · exact h
  · exact h.congr rfl rfl

/-- R142: where a mount that has ended goes, by PFAIL. -/
theorem enterService_queueInv {s : State} (h : s.QueueInv) :
    (if s.pins.pfail then assertLine (setReturn (some .active) (s.setService .drained)) else enterActive s).QueueInv := by
  split
  · exact assertLine_queueInv (setReturn_queueInv _ (setService_queueInv _ h))
  · exact enterActive_queueInv h

theorem endMount_queueInv {s : State} (h : s.QueueInv) : (endMount s).QueueInv := by
  unfold endMount
  split
  case h_1 w _ =>
    have htable := takeTable_queueInv (mountTable w s.pageMap) h
    have hdone := setFlag_queueInv .mountDone (setEngine_queueInv .idle htable)
    refine releaseMountHold_queueInv (enterService_queueInv ?_)
    split
    · exact setFlag_queueInv _ hdone
    · exact hdone
  case h_2 => exact h
  case h_3 => exact h

theorem takeFormat_queueInv {s : State} (pages : Nat) (h : s.QueueInv) : (takeFormat pages s).QueueInv :=
  queueInv_of_not_running ((KeepsQueue.of_staging rfl).ok h.ok) nofun

theorem failFormat_queueInv {s : State} (h : s.QueueInv) : (failFormat s).QueueInv := h.congr rfl rfl

theorem completeFormat_queueInv {s : State} (w : FormatWork) (h : s.QueueInv) : (completeFormat w s).QueueInv := by
  unfold completeFormat
  exact setFlag_queueInv _ (enterActive_queueInv (setEngine_queueInv _ (takeTable_queueInv _ (h.congr rfl rfl))))

theorem formatRecordDone_queueInv {s : State} (half : Fin 256) (pass : Bool) (w : FormatWork) (h : s.QueueInv) :
    (formatRecordDone half pass w s).QueueInv := by
  have hwrite : ∀ x, (writeRecordHalf x w s).QueueInv := fun x =>
    queueInv_of_engineFrame h (handOver_setEngine_frame ..)
  unfold formatRecordDone
  split
  · split
    · exact completeFormat_queueInv w h
    · split <;> exact hwrite _
  · exact failFormat_queueInv h

theorem volumeReadDone_queueInv {s : State} (bk : BankId) (bytes : List Byte) (h : s.QueueInv) :
    (volumeReadDone bk bytes s).QueueInv := by
  unfold volumeReadDone
  split
  · exact h
  · split
    · exact mountRecordRead_queueInv _ _ h
    · exact queueInv_of_engineFrame h (mountBlockRead_frame ..)
    · exact h
  · split
    · exact h
    · split
      · exact queueInv_of_engineFrame h (formatBlockRead_frame ..)
      · exact h

/-- What the end of a program does in a format (R146, R147, R149). -/
theorem volumeProgramDone_format_cases (bk : BankId) (pass : Bool) {s : State} {w : FormatWork}
    (hw : s.engine = .format w) :
    volumeProgramDone bk pass s = s ∨ (∃ half, volumeProgramDone bk pass s = formatRecordDone half pass w s) ∨
      (∃ n b t, volumeProgramDone bk pass s = formatBlockMade bk b (madeRecord .free n) t w s) ∨
      (∃ n b t, volumeProgramDone bk pass s = formatRetire bk n b t w s) ∨
      ∃ n b t, volumeProgramDone bk pass s =
        formatBlockMade bk b (madeRecord .retired n) t w (s.setFlag .blockRetired) := by
  unfold volumeProgramDone
  rw [hw]
  dsimp only
  generalize (w.bank bk).phase = phase
  cases w.abandoned with
  | true => exact .inl rfl
  | false =>
    cases w.stage with
    | record half => exact .inr (.inl ⟨half, rfl⟩)
    | reading => exact .inl rfl
    | erasingVolume => exact .inl rfl
    | blocks =>
      cases phase with
      | freshing n todo =>
        cases todo with
        | nil => exact .inl rfl
        | cons b t =>
          cases pass with
          | true => exact .inr (.inr (.inl ⟨n, b, t, rfl⟩))
          | false => exact .inr (.inr (.inr (.inl ⟨n, b, t, rfl⟩)))
      | retiring n todo =>
        cases todo with
        | nil => exact .inl rfl
        | cons b t => exact .inr (.inr (.inr (.inr ⟨n, b, t, rfl⟩)))
      | _ => exact .inl rfl

theorem volumeProgramDone_queueInv {s : State} (bk : BankId) (pass : Bool) (h : s.QueueInv) :
    (volumeProgramDone bk pass s).QueueInv := by
  have hflag : (s.setFlag .blockRetired).QueueInv := h.congr rfl rfl
  cases hw : s.engine with
  | idle =>
    unfold volumeProgramDone
    rw [hw]
    exact h
  | mount w =>
    unfold volumeProgramDone
    rw [hw]
    dsimp only
    split
    · exact queueInv_of_engineFrame h (mountRepairDone_frame ..)
    · exact h
  | format w =>
    rcases volumeProgramDone_format_cases bk pass hw with
      heq | ⟨half, heq⟩ | ⟨n, b, t, heq⟩ | ⟨n, b, t, heq⟩ | ⟨n, b, t, heq⟩ <;> rw [heq]
    · exact h
    · exact formatRecordDone_queueInv _ _ _ h
    · exact queueInv_of_engineFrame h (formatNext_frame ..)
    · exact queueInv_of_engineFrame h (handOver_setEngine_frame ..)
    · exact queueInv_of_engineFrame hflag (formatNext_frame ..)

theorem takeVolumeErase_queueInv {s : State} (bk : BankId) (pass : Bool) (h : s.QueueInv) :
    (takeVolumeErase bk pass s).QueueInv := by
  have hcount := bumpIf_queueInv pass .erases h
  simp only [takeVolumeErase]
  split
  · exact hcount
  · exact hcount
  · split
    · exact hcount
    · split
      · split
        · exact queueInv_of_engineFrame hcount
            (((setEngine_frame ..).trans (formatStartBlocks_frame ..)).trans (formatStartBlocks_frame ..))
        · exact failFormat_queueInv hcount
      · exact queueInv_of_engineFrame hcount (formatBlockErased_frame ..)
      · exact hcount

/-! ## Resets and drains -/

theorem reset_queueInv {s : State} (hst : s.staging = Staging.reset) (hact : s.mover.activity = .idle) : s.QueueInv :=
  State.QueueInv.congr (s := State.reset)
    ⟨List.nodup_nil, by decide, fun r i p hr => by cases hr⟩ hst hact

theorem internalReset_queueInv (s : State) : (internalReset s).QueueInv :=
  queueInv_of_engineFrame (reset_queueInv (s := resetBlocks s) rfl rfl) (beginMount_frame _)

theorem startDrain_queueInv {s : State} (h : s.QueueInv) : (startDrain s).QueueInv := by
  refine h.keeps (startDrain_keepsQueue s) ?_
  simp [startDrain]

theorem completeDrain_queueInv {s : State} (h : s.QueueInv) : (completeDrain s).QueueInv := by
  unfold completeDrain
  split
  · exact assertLine_queueInv (h.congr rfl rfl)
  · split
    · exact internalReset_queueInv s
    · exact enterActive_queueInv (h.congr rfl rfl)

theorem testDrain_queueInv {s : State} (h : s.QueueInv) : (testDrain s).QueueInv := by
  unfold testDrain
  split
  · exact completeDrain_queueInv h
  · exact h

theorem pfailAtDrain_queueInv {s : State} (h : s.QueueInv) : (pfailAtDrain s).QueueInv := by
  unfold pfailAtDrain
  split
  · exact h
  · exact assertLine_queueInv (h.congr rfl rfl)
  · exact queueInv_of_engineFrame h (abandonFormat_frame s)
  · exact startDrain_queueInv h
  · exact h
  · exact h

theorem assertPfail_queueInv {s : State} (h : s.QueueInv) : (assertPfail s).QueueInv := by
  refine testDrain_queueInv (settle_queueInv (queueInv_of_bankFrame ?_ (holdBanks_frame _)))
  exact pfailAtDrain_queueInv (h.congr rfl rfl)

theorem releaseAtDrain_queueInv {s : State} (h : s.QueueInv) : (releaseAtDrain s).QueueInv := by
  have hdrop : (dropLine s).QueueInv := h.congr rfl rfl
  simp only [releaseAtDrain]
  split
  · split
    · exact internalReset_queueInv _
    · split
      · exact enterActive_queueInv (hdrop.congr rfl rfl)
      · exact hdrop.congr rfl rfl
      · exact hdrop
  · exact queueInv_of_blockFrame hdrop (serveErases_frame _)
  · exact hdrop
  · exact hdrop
  · exact hdrop
  · exact queueInv_of_blockFrame hdrop (serveErases_frame _)

theorem releasePfail_queueInv {s : State} (h : s.QueueInv) : (releasePfail s).QueueInv := by
  refine settle_queueInv (testDrain_queueInv (settle_queueInv (releaseAtDrain_queueInv ?_)))
  exact queueInv_of_bankFrame (s := setPfail false s) (h.congr rfl rfl) (releaseBanks_frame _)

/-! ## Flash answers and timers -/

theorem queueInv_of_flashFrame {s t : State} (h : s.QueueInv) (hst : FlashFrame s t) : t.QueueInv := by
  rw [hst]; exact h.congr rfl rfl

theorem reportRead_queueInv {s : State} (bk : BankId) (c : ReqClass) (bytes : List Byte) (h : s.QueueInv) :
    (reportRead bk c bytes s).QueueInv := by
  unfold reportRead
  split
  · exact hostReadDone_queueInv _ _ h
  · exact moverReadDone_queueInv _ h
  · exact h
  · exact volumeReadDone_queueInv _ _ h

theorem finishRead_queueInv {s : State} (bk : BankId) (c : ReqClass) (bytes : List Byte) (h : s.QueueInv) :
    (finishRead bk c bytes s).QueueInv := by
  have hreport := reportRead_queueInv bk c bytes (setBank_queueInv bk ((s.bank bk).setSlot c none) h)
  unfold finishRead
  split
  · split
    · exact setBank_queueInv _ _ (setBank_queueInv _ _ h)
    · exact setBank_queueInv _ _ hreport
  · exact setBank_queueInv _ _ hreport

theorem afterRead_queueInv {s : State} (c : ReqClass) (h : s.QueueInv) : (afterRead c s).QueueInv := by
  unfold afterRead
  split
  · exact settle_queueInv h
  · exact queueInv_of_bankFrame h (kickBanks_frame s)

theorem reportDescriptor_queueInv {s : State} (bk : BankId) (c : ReqClass) (b : BlockRef) (prog : DescProgram)
    (pass : Bool) (h : s.QueueInv) : (reportDescriptor bk c b prog pass s).QueueInv := by
  unfold reportDescriptor
  split
  · exact h
  · exact inUseDone_queueInv _ _ h
  · exact takeDescriptorResult_queueInv _ _ _ h
  · exact volumeProgramDone_queueInv _ _ h

theorem reportProgram_queueInv {s : State} (bk : BankId) (c : ReqClass) (pass : Bool) (h : s.QueueInv) :
    (reportProgram bk c pass s).QueueInv := by
  unfold reportProgram
  split
  · exact h
  · exact moverProgramDone_queueInv _ h
  · exact h
  · exact volumeProgramDone_queueInv _ _ h

theorem finishProgram_queueInv {s : State} (bk : BankId) (c : ReqClass) (pass : Bool) (h : s.QueueInv) :
    (finishProgram bk c pass s).QueueInv := by
  have hcount := bumpIf_queueInv (!pass) .programFailures h
  have hempty := setBank_queueInv bk (((s.bumpIf (!pass) .programFailures).bank bk).setSlot c none) hcount
  simp only [finishProgram]
  split
  · split
    · exact setBank_queueInv _ _ hcount
    · exact reportDescriptor_queueInv _ _ _ _ _ hempty
    · exact reportProgram_queueInv _ _ _ hempty
  · exact hcount

theorem finishErase_queueInv {s : State} (bk : BankId) (pass : Bool) (h : s.QueueInv) :
    (finishErase bk pass s).QueueInv := by
  have hend : (endErase bk pass s).QueueInv := by
    unfold endErase
    split
    · exact setBank_queueInv _ _ (queueInv_of_flashFrame h (eraseArray_frame ..))
    · exact h
  unfold finishErase
  split
  · unfold reportErase
    split
    · exact takeEraseResult_queueInv _ _ hend
    · exact takeVolumeErase_queueInv _ _ hend
  · exact h

theorem completeErase_queueInv {s : State} (bk : BankId) (pass : Bool) (h : s.QueueInv) :
    (completeErase bk pass s).QueueInv := by
  unfold completeErase
  split
  · exact queueInv_of_bankFrame (finishErase_queueInv _ _ (setBank_queueInv _ _ h)) (kickBanks_frame _)
  · exact h

theorem failErase_queueInv {s : State} (bk : BankId) (h : s.QueueInv) : (failErase bk s).QueueInv :=
  queueInv_of_bankFrame (queueInv_of_oneBank (finishErase_queueInv bk false h) (beginBankReset_oneBank ..))
    (kickBanks_frame _)

theorem endBankReset_queueInv {s : State} (bk : BankId) (h : s.QueueInv) : (endBankReset bk s).QueueInv :=
  queueInv_of_bankFrame (queueInv_of_engineFrame (setBank_queueInv _ _ h) (volumeResetDone_frame ..))
    (kickBanks_frame _)

theorem exec_arrayReadDone_queueInv {bk : BankId} {answer : ReadAnswer} {s t : State}
    (h : exec (.arrayReadDone bk answer) s = .next t) (hs : s.QueueInv) : t.QueueInv := by
  simp only [exec, execArrayReadDone] at h
  split at h <;> obtain rfl := Host.Outcome.next.inj h
  · exact afterRead_queueInv _ (finishRead_queueInv _ _ _ hs)
  · exact hs

theorem exec_programEnd_queueInv {bk : BankId} {s t : State} (h : exec (.programEnd bk) s = .next t)
    (hs : s.QueueInv) : t.QueueInv := by
  simp only [exec, execProgramEnd] at h
  split at h <;> obtain rfl := Host.Outcome.next.inj h
  · exact setBank_queueInv _ _ hs
  · exact hs

theorem exec_programVerifyDone_queueInv {bk : BankId} {value : HalfWord} {s t : State}
    (h : exec (.programVerifyDone bk value) s = .next t) (hs : s.QueueInv) : t.QueueInv := by
  simp only [exec, execProgramVerifyDone] at h
  split at h <;> obtain rfl := Host.Outcome.next.inj h
  · exact settle_queueInv (setBank_queueInv _ _
      (finishProgram_queueInv _ _ _ (queueInv_of_flashFrame hs (setHalf_frame ..))))
  · exact hs

theorem exec_programTimeout_queueInv {bk : BankId} {s t : State} (h : exec (.programTimeout bk) s = .next t)
    (hs : s.QueueInv) : t.QueueInv := by
  rcases program_cases (s.bank bk) with ⟨c, slot, hw, v, hprog⟩ | hnone
  · rw [exec_programTimeout_of_program hprog] at h
    obtain rfl := Host.Outcome.next.inj h
    have hout : (timedOut bk c slot hw v s).QueueInv :=
      finishProgram_queueInv _ _ _ (queueInv_of_flashFrame hs (halfDone_frame ..))
    refine settle_queueInv (queueInv_of_oneBank ?_ (beginBankReset_oneBank ..))
    split
    · exact finishErase_queueInv _ _ hout
    · exact hout
  · rw [exec_programTimeout_of_no_program hnone] at h
    obtain rfl := Host.Outcome.next.inj h
    exact hs

/-! ## Management commands -/

theorem takeWriteParam_queueInv {s : State} (id : Byte) (value : BitVec 16) (h : s.QueueInv) :
    (takeWriteParam id value s).2.QueueInv := by
  have hset : (setParam id.toNat value.toNat s).QueueInv := h.congr rfl rfl
  unfold takeWriteParam
  split
  · dsimp only
    split
    · exact settle_queueInv (queueInv_of_blockFrame hset (evaluateTriggers_frame _))
    · exact hset
  · exact h

theorem takeFlush_queueInv {s : State} (h : s.QueueInv) : (takeFlush s).2.QueueInv := by
  unfold takeFlush
  split
  · refine settle_queueInv (h.keeps (flushStaging_keepsQueue s) (congrArg Mover.activity ?_))
    rw [flushStaging_eq]
    split
    · exact closeAll_mover s.marked
    · exact closeAll_mover s.marked
  · exact h

theorem takeResumeCommit_queueInv {s : State} (h : s.QueueInv) : (takeResumeCommit s).2.QueueInv := by
  unfold takeResumeCommit
  split
  · have hresume : (resumeEntry s).QueueInv := by
      refine h.keeps (resumeEntry_keepsQueue s) (congrArg Mover.activity ?_)
      unfold resumeEntry; split <;> rfl
    exact settle_queueInv (hresume.congr rfl rfl)
  · exact h

theorem takeFormatCommand_queueInv {s : State} (pages : BitVec 16) (h : s.QueueInv) :
    (takeFormatCommand pages s).2.QueueInv := by
  unfold takeFormatCommand
  split
  · exact h
  · split
    · exact takeFormat_queueInv _ h
    · exact h

theorem takeRestart_queueInv {s : State} (h : s.QueueInv) : (takeRestart s).2.QueueInv := by
  have hset : (setRestart s).QueueInv := h.congr rfl rfl
  unfold takeRestart
  split
  · exact settle_queueInv (startDrain_queueInv hset)
  · exact internalReset_queueInv s
  · exact testDrain_queueInv hset
  · exact hset
  · exact h
  · exact h

theorem takeCommand_queueInv {s : State} (code : Byte) (args : List Byte) (h : s.QueueInv) :
    (takeCommand code args s).2.QueueInv := by
  unfold takeCommand
  split
  case h_4 => exact h.congr rfl rfl
  case h_5 => exact h.congr rfl rfl
  case h_6 => rwa [takeReadParam_state]
  case h_7 => exact takeWriteParam_queueInv _ _ h
  case h_8 => exact takeFlush_queueInv h
  case h_9 => exact takeResumeCommit_queueInv h
  case h_10 => exact takeFormatCommand_queueInv _ h
  case h_11 => exact takeRestart_queueInv h
  case h_12 => rwa [takeQueryPage_state]
  case h_13 => rwa [takeQueryBlock_state]
  case h_14 => rwa [takeReadCounter_state]
  case h_15 => exact h.congr rfl rfl
  all_goals exact h

theorem takeFrame_queueInv {s : State} (code : Byte) (args : List Byte) {body : State → Taken} (h : s.QueueInv)
    (hbody : (body s).2.QueueInv) : (takeFrame code args body s).QueueInv := by
  rcases takeFrame_cases code args body s with heq | heq <;> rw [heq]
  · exact hbody.congr rfl rfl
  · exact h

theorem clockBit_queueInv {s : State} (sdi : Bool) (h : s.QueueInv) : (clockBit sdi s).QueueInv := by
  rcases clockBit_cases sdi s with ⟨r, heq⟩ | ⟨r, code, args, heq⟩ <;> rw [heq]
  · exact h.congr rfl rfl
  · exact (takeCommand_queueInv code args h).congr rfl rfl

theorem startFrame_queueInv {s : State} (h : s.QueueInv) : (startFrame s).QueueInv := by
  simp only [startFrame]
  split
  · exact h
  · split
    · exact h.congr rfl rfl
    · split <;> exact h.congr rfl rfl

theorem endFrame_queueInv {s : State} (h : s.QueueInv) : (endFrame s).QueueInv := by
  simp only [endFrame]
  split <;> exact h.congr rfl rfl

/-! ## Every command -/

theorem queueInv_ite {p : Prop} {h : Decidable p} {s t : State} (ht : t.QueueInv) (hs : s.QueueInv) :
    (if p then t else s).QueueInv := by
  split
  · exact ht
  · exact hs

theorem releaseReset_queueInv {s : State} (h : s.QueueInv) : (releaseReset s).QueueInv :=
  arriveFromPins_queueInv (queueInv_of_engineFrame
    (s := { s with port := { state := .idle, holdTimer := none, cycle := none } }) (h.congr rfl rfl)
    (beginMount_frame _))

theorem exec_queueInv {c : Instr} {s t : State} (h : exec c s = .next t) (hs : s.QueueInv) : t.QueueInv := by
  cases c
  case arrayReadDone => exact exec_arrayReadDone_queueInv h hs
  case programEnd => exact exec_programEnd_queueInv h hs
  case programVerifyDone => exact exec_programVerifyDone_queueInv h hs
  case programTimeout => exact exec_programTimeout_queueInv h hs
  all_goals cases h
  case powerOn => exact reset_queueInv rfl rfl
  case resetAsserted => exact reset_queueInv rfl rfl
  case resetReleased => exact queueInv_ite (releaseReset_queueInv hs) hs
  case hostReadArrival => exact assertStrobes_queueInv _ hs
  case hostWriteArrival => exact assertStrobes_queueInv _ hs
  case cycleBothStrobes => exact assertStrobes_queueInv _ hs
  case cycleEnd => exact withdrawStrobes_queueInv hs
  case cycleAbandoned => exact withdrawStrobes_queueInv hs
  case holdTimerExpiry => exact expireHold_queueInv hs
  case idleTimerExpiry => exact queueInv_ite (settle_queueInv (closeEntry_queueInv _ hs)) hs
  case ageTimerExpiry => exact queueInv_ite (settle_queueInv (closeEntry_queueInv _ hs)) hs
  case eraseComplete => exact completeErase_queueInv _ _ hs
  case eraseCompleteInSuspending => exact completeErase_queueInv _ _ hs
  case suspendAcknowledged bk =>
    exact queueInv_ite (queueInv_of_oneBank (s := suspendBank bk s) ((setBank_queueInv _ _ hs).congr rfl rfl)
      (kickBank_oneBank _ _)) hs
  case quantumTimerExpiry =>
    exact queueInv_ite (queueInv_of_oneBank (setBank_queueInv _ _ hs) (kickBank_oneBank _ _)) hs
  case suspendAckTimeout => exact queueInv_ite (failErase_queueInv _ hs) hs
  case eraseTimeout => exact queueInv_ite (failErase_queueInv _ hs) hs
  case bankResetComplete => exact queueInv_ite (endBankReset_queueInv _ hs) hs
  case bankResetTimerExpiry => exact queueInv_ite (endBankReset_queueInv _ hs) hs
  case pfailAsserted =>
    show (if s.pins.pfail then s else assertPfail s).QueueInv
    split
    · exact hs
    · exact assertPfail_queueInv hs
  case pfailReleased => exact queueInv_ite (releasePfail_queueInv hs) hs
  case drainFinish => exact queueInv_ite (settle_queueInv (completeDrain_queueInv hs)) hs
  case formatDrainedAssert => exact queueInv_ite (assertLine_queueInv hs) hs
  case formatAbandonEnd => exact queueInv_ite (failFormat_queueInv hs) hs
  case mountCandidateChoice =>
    exact queueInv_ite (queueInv_of_bankFrame (chooseMount_queueInv hs) (kickBanks_frame _)) hs
  case mountEnd => exact queueInv_ite (settle_queueInv (endMount_queueInv hs)) hs
  case formatBankStart =>
    exact queueInv_ite (queueInv_of_oneBank (queueInv_of_engineFrame hs (startFormatBank_frame ..))
      (kickBank_oneBank _ _)) hs
  case formatVolumeRecord =>
    exact queueInv_ite (queueInv_of_oneBank (queueInv_of_engineFrame hs (startRecord_frame s))
      (kickBank_oneBank _ _)) hs
  case frameStart => exact startFrame_queueInv hs
  case frameEnd => exact endFrame_queueInv hs
  case unknownCommand code =>
    show (if knownCode code then s else _).QueueInv
    split
    · exact hs
    · exact takeFrame_queueInv _ _ hs hs
  case identify => exact takeFrame_queueInv _ _ hs hs
  case status => exact takeFrame_queueInv _ _ hs hs
  case readFlags => exact takeFrame_queueInv _ _ hs hs
  case clearFlags => exact takeFrame_queueInv _ _ hs (hs.congr rfl rfl)
  case setAlertMask => exact takeFrame_queueInv _ _ hs (hs.congr rfl rfl)
  case readParam => exact takeFrame_queueInv _ _ hs (by rwa [takeReadParam_state])
  case writeParam => exact takeFrame_queueInv _ _ hs (takeWriteParam_queueInv _ _ hs)
  case flush => exact takeFrame_queueInv _ _ hs (takeFlush_queueInv hs)
  case resumeCommit => exact takeFrame_queueInv _ _ hs (takeResumeCommit_queueInv hs)
  case format => exact takeFrame_queueInv _ _ hs (takeFormatCommand_queueInv _ hs)
  case restart => exact takeFrame_queueInv _ _ hs (takeRestart_queueInv hs)
  case queryPage => exact takeFrame_queueInv _ _ hs (by rwa [takeQueryPage_state])
  case queryBlock => exact takeFrame_queueInv _ _ hs (by rwa [takeQueryBlock_state])
  case readCounter => exact takeFrame_queueInv _ _ hs (by rwa [takeReadCounter_state])
  case clearCounters => exact takeFrame_queueInv _ _ hs (hs.congr rfl rfl)
  case sckRisingEdge => exact clockBit_queueInv _ hs

theorem entry_tick (s : State) (i : Fin 8) : (tick s).entry i = tickEntry (s.entry i) :=
  Vector.getElem_map _ i.isLt

/-- A microsecond changes timers only. -/
theorem tick_queueInv {s : State} (h : s.QueueInv) : (tick s).QueueInv := by
  have hstate : ∀ i, ((tick s).entry i).state = (s.entry i).state := fun i => by rw [entry_tick]; rfl
  refine h.keeps ⟨fun hs => ⟨hs.1, fun i => ?_⟩, fun i hi => (hstate i).trans hi⟩ rfl
  rw [hstate]
  exact hs.2 i

/-- Settles O5: a microsecond changes no entry's state, and every command keeps the queue by `exec_queueInv`. -/
theorem stepKeepsCommitQueue : Obligations.StepKeepsCommitQueue := by
  intro s t hs h
  unfold step at h
  split at h
  case h_1 =>
    obtain rfl := Host.Outcome.next.inj h
    exact tick_queueInv hs
  case h_2 c rest _ => exact exec_queueInv h (hs.congr rfl rfl)

end Sys2Proof.Machine
end

section
/-! SUPPORT. Closing the GATHERING entries (R35, R36, R44): what `closeEntry` and `closeAll` make of each entry and of
the queue, and the order in which they close. -/

-- In order: as one text the package would start more threads than memory has stacks for.
set_option Elab.async false

namespace Sys2Proof.Machine

/-! ## States that differ in the staging buffer alone -/

/-- `t` is `s` but for the staging buffer. -/
def StagingFrame (s t : State) : Prop := t = { s with staging := t.staging }

namespace StagingFrame

variable {s t u : State}

theorem refl (s : State) : StagingFrame s s := rfl

theorem trans (hst : StagingFrame s t) (htu : StagingFrame t u) : StagingFrame s u := by
  unfold StagingFrame at *
  rw [htu, hst]

theorem port (h : StagingFrame s t) : t.port = s.port := by rw [h]
theorem mgmt (h : StagingFrame s t) : t.mgmt = s.mgmt := by rw [h]
theorem service (h : StagingFrame s t) : t.service = s.service := by rw [h]
theorem waiting (h : StagingFrame s t) (w : Wait) : t.waiting w = s.waiting w := by rw [h]; rfl

end StagingFrame

theorem closeEntry_frame (i : Fin 8) (s : State) : StagingFrame s (closeEntry i s) := by
  simp only [closeEntry]
  split
  · rfl
  · rfl

theorem closeAll_frame (s : State) : StagingFrame s (closeAll s) :=
  List.foldlRecOn (motive := StagingFrame s) s.gatheringInOrder _ (.refl s)
    fun _ ht i _ => ht.trans (closeEntry_frame i _)

theorem closeEntry_nextOpen (i : Fin 8) (s : State) : (closeEntry i s).staging.nextOpen = s.staging.nextOpen := by
  simp only [closeEntry]
  split <;> rfl

theorem closeAll_nextOpen (s : State) : (closeAll s).staging.nextOpen = s.staging.nextOpen :=
  List.foldlRecOn (motive := fun t : State => t.staging.nextOpen = s.staging.nextOpen) s.gatheringInOrder _ rfl
    fun _ ht i _ => (closeEntry_nextOpen i _).trans ht

/-! ## One entry -/

/-- An entry after every GATHERING entry has closed (R35): CLOSED with its timers stopped if it was GATHERING. -/
def Entry.afterClose (e : Entry) : Entry :=
  { e with
    state := if e.state = .gathering then .closed else e.state
    idle := if e.state = .gathering then none else e.idle
    age := if e.state = .gathering then none else e.age }

theorem afterClose_of_gathering {e : Entry} (h : e.state = .gathering) :
    e.afterClose = { e with state := .closed, idle := none, age := none } := by
  simp [Entry.afterClose, h]

theorem afterClose_of_not_gathering {e : Entry} (h : e.state ≠ .gathering) : e.afterClose = e := by
  simp [Entry.afterClose, h]

theorem afterClose_state_ne (e : Entry) : e.afterClose.state ≠ .gathering := by
  by_cases h : e.state = .gathering <;> simp [Entry.afterClose, h]

theorem entry_withClosed (s : State) (i j : Fin 8) :
    (s.withClosed i).entry j = if j = i then { s.entry i with state := .closed, idle := none, age := none }
      else s.entry j := by
  rw [State.withClosed, entry_setQueue, entry_setEntry_eq]

/-! ## A list of GATHERING entries -/

/-- Closing distinct GATHERING entries one after another: they join the queue in that order. -/
theorem closeList_eq (l : List (Fin 8)) (s : State) (hnodup : l.Nodup) (hall : ∀ i ∈ l, (s.entry i).state = .gathering) :
    (l.foldl (fun acc i => closeEntry i acc) s).staging.queue = s.staging.queue ++ l ∧
      ∀ i, (l.foldl (fun acc i => closeEntry i acc) s).entry i =
        if i ∈ l then (s.entry i).afterClose else s.entry i := by
  induction l generalizing s with
  | nil => simp
  | cons j l ih =>
    obtain ⟨hj, hnodup⟩ := List.nodup_cons.mp hnodup
    have hgathering : (s.entry j).state = .gathering := hall j (by simp)
    have hrest : ∀ i ∈ l, ((s.withClosed j).entry i).state = .gathering := by
      intro i hi
      have hne : i ≠ j := fun heq => hj (heq ▸ hi)
      rw [entry_withClosed, if_neg hne]
      exact hall i (by simp [hi])
    obtain ⟨hqueue, hentry⟩ := ih (s.withClosed j) hnodup hrest
    rw [List.foldl_cons, closeEntry_of_gathering hgathering]
    refine ⟨by rw [hqueue]; simp [State.withClosed], fun i => ?_⟩
    rw [hentry, entry_withClosed]
    by_cases heq : i = j
    · subst heq
      simp [hj, afterClose_of_gathering hgathering]
    · simp [heq]

/-! ## Every GATHERING entry, in the order of opening -/

theorem insertOpened_perm (s : State) (i : Fin 8) (l : List (Fin 8)) : (insertOpened s i l).Perm (i :: l) := by
  induction l with
  | nil => exact .refl _
  | cons j l ih =>
    unfold insertOpened
    split
    · exact .refl _
    · exact (ih.cons j).trans (.swap i j l)

theorem foldl_insertOpened_perm (s : State) (l acc : List (Fin 8)) :
    (l.foldl (fun acc i => insertOpened s i acc) acc).Perm (acc ++ l) := by
  induction l generalizing acc with
  | nil => simp
  | cons i l ih =>
    refine (ih _).trans ?_
    exact (((insertOpened_perm s i acc).append_right l).trans List.perm_middle.symm)

theorem gatheringInOrder_perm (s : State) :
    s.gatheringInOrder.Perm (entryNumbers.filter fun i => (s.entry i).state == .gathering) :=
  foldl_insertOpened_perm s _ []

theorem entryNumbers_nodup : entryNumbers.Nodup := by decide

theorem gatheringInOrder_nodup (s : State) : s.gatheringInOrder.Nodup :=
  (gatheringInOrder_perm s).nodup_iff.mpr (entryNumbers_nodup.filter _)

theorem mem_gatheringInOrder {s : State} {i : Fin 8} :
    i ∈ s.gatheringInOrder ↔ (s.entry i).state = .gathering := by
  simp [(gatheringInOrder_perm s).mem_iff, mem_entryNumbers]

/-- R35, R36: the GATHERING entries join the tail of the queue in the order in which they opened. -/
theorem closeAll_queue (s : State) : (closeAll s).staging.queue = s.staging.queue ++ s.gatheringInOrder :=
  (closeList_eq s.gatheringInOrder s (gatheringInOrder_nodup s) fun _ => mem_gatheringInOrder.mp).1

theorem closeAll_entry (s : State) (i : Fin 8) : (closeAll s).entry i = (s.entry i).afterClose := by
  rw [closeAll, (closeList_eq s.gatheringInOrder s (gatheringInOrder_nodup s) fun _ => mem_gatheringInOrder.mp).2]
  split
  case isTrue => rfl
  case isFalse h => exact (afterClose_of_not_gathering fun hi => h (mem_gatheringInOrder.mpr hi)).symm

theorem insertOpened_congr {s t : State} (h : ∀ i, (t.entry i).openSeq = (s.entry i).openSeq) (i : Fin 8)
    (l : List (Fin 8)) : insertOpened t i l = insertOpened s i l := by
  induction l with
  | nil => rfl
  | cons j l ih =>
    have hbefore : openedBefore (t.entry i) (t.entry j) = openedBefore (s.entry i) (s.entry j) := by
      rw [openedBefore, openedBefore, h, h]
    simp only [insertOpened, hbefore, ih]

/-- The order is one of states and open numbers alone. -/
theorem gatheringInOrder_congr {s t : State} (hstate : ∀ i, (t.entry i).state = (s.entry i).state)
    (hseq : ∀ i, (t.entry i).openSeq = (s.entry i).openSeq) : t.gatheringInOrder = s.gatheringInOrder := by
  have hinsert : ∀ acc i, insertOpened t i acc = insertOpened s i acc := fun acc i => insertOpened_congr hseq i acc
  simp only [State.gatheringInOrder, hstate, hinsert]

end Sys2Proof.Machine
end

section
/-! SUPPORT. What the operations on the arrays leave of each byte: an erase that did not pass, a program cut short, and
what a reset of the part makes of the work in progress (R92, R113, R150). -/

-- In order: as one text the package would start more threads than memory has stacks for.
set_option Elab.async false

namespace Sys2Proof.Machine

/-! ## Bytes of one array -/

theorem volumeBlock_index : BlockRef.index volumeBlock = 0 := rfl

/-- A0 is the block of bank A with index 0. -/
theorem eq_volumeBlock {b : BlockRef} (hbank : .a = BlockRef.bank b) (hidx : 0 = BlockRef.index b) :
    b = volumeBlock := by
  simp only [BlockRef.bank, BlockRef.index] at hbank hidx
  split at hbank
  · exact Fin.ext (by simp only [volumeBlock, Fin.val_zero]; omega)
  · cases hbank

theorem assocGet_eq_none {α : Type} {l : List (Nat × α)} {a : Nat} (h : ∀ c ∈ l, c.1 ≠ a) : assocGet l a = none := by
  induction l with
  | nil => rfl
  | cons c l ih =>
    have hne : a ≠ c.1 := fun heq => h c (by simp) heq.symm
    rw [assocGet, if_neg hne]
    exact ih fun d hd => h d (by simp [hd])

/-- A listed cell after a part erase of its block; none when it reads as if it were not listed (log 9). -/
def Flash.partErasedCell (f : Flash) (index stamp : Nat) (c : Nat × Byte) : Option (Nat × Byte) :=
  if c.1 / Config.blockBytes = index then
    let v := c.2 ||| Config.spoiledByte stamp c.1
    if v = f.unlisted c.1 then none else some (c.1, v)
  else some c

theorem partErase_cells (f : Flash) (i n : Nat) :
    (f.partErase i n).cells = f.cells.filterMap (f.partErasedCell i n) := rfl

theorem partErasedCell_fst {f : Flash} {i n : Nat} {c d : Nat × Byte} (h : f.partErasedCell i n c = some d) :
    d.1 = c.1 := by
  simp only [Flash.partErasedCell] at h
  split at h
  · split at h
    · cases h
    · cases h; rfl
  · cases h; rfl

/-- What a part erase makes of the first of the listed cells of an address. -/
theorem assocGet_partErase (f : Flash) (n a : Nat) {l : List (Nat × Byte)} (hrise : l.Pairwise fun p q => p.1 < q.1) :
    (assocGet (l.filterMap (f.partErasedCell (a / Config.blockBytes) n)) a).getD (f.unlisted a) =
      ((assocGet l a).map fun v => v ||| Config.spoiledByte n a).getD (f.unlisted a) := by
  induction l with
  | nil => rfl
  | cons c l ih =>
    obtain ⟨hfirst, hrest⟩ := List.pairwise_cons.mp hrise
    obtain ⟨k, v⟩ := c
    by_cases hk : a = k
    · subst hk
      have hgone : assocGet (l.filterMap (f.partErasedCell (a / Config.blockBytes) n)) a = none :=
        assocGet_eq_none fun d hd => by
          obtain ⟨e, he, hed⟩ := List.mem_filterMap.mp hd
          rw [partErasedCell_fst hed]
          exact (hfirst e he).ne'
      rw [List.filterMap_cons]
      by_cases hv : v ||| Config.spoiledByte n a = f.unlisted a
      · simp [Flash.partErasedCell, hv, hgone, assocGet]
      · simp [Flash.partErasedCell, hv, assocGet]
    · rw [List.filterMap_cons]
      cases hcell : f.partErasedCell (a / Config.blockBytes) n (k, v) with
      | none => simpa [assocGet, hk] using ih hrest
      | some d =>
        have hd : d.1 = k := partErasedCell_fst hcell
        obtain ⟨d1, d2⟩ := d
        simp only at hd
        subst hd
        simpa [assocGet, hk] using ih hrest

/-- A part erase only sets bits of its block (R150). -/
theorem byte_partErase_sets (f : Flash) (n a : Nat) (h : f.wf = true) :
    f.byte a &&& (f.partErase (a / Config.blockBytes) n).byte a = f.byte a := by
  obtain ⟨hrise, -, -⟩ := f.wf_iff.mp h
  have hget := assocGet_partErase f n a ((assocRising_iff _).mp hrise)
  have hbyte : (f.partErase (a / Config.blockBytes) n).byte a =
      ((assocGet f.cells a).map fun v => v ||| Config.spoiledByte n a).getD (f.unlisted a) := hget
  rw [hbyte, Flash.byte]
  cases assocGet f.cells a with
  | none => exact BitVec.and_self
  | some v =>
    ext i hi
    simp only [Option.map_some, Option.getD_some, BitVec.getElem_and, BitVec.getElem_or]
    cases v[i] <;> simp

/-- An erase of A0 that did not pass only sets bits there (R150). -/
theorem byte_spoilVolume_sets (f : Flash) {n a : Nat} (h : f.wf = true) (ha : a / Config.blockBytes = 0) :
    f.byte a &&& (f.spoilVolume n).byte a = f.byte a := by
  have hpart := byte_partErase_sets f n a h
  rw [ha] at hpart
  unfold Flash.spoilVolume
  dsimp only
  rw [volumeBlock_index]
  split
  · exact hpart
  · by_cases haddr : a = (headerOf volumeBlock).addr 0
    · subst haddr
      rw [Flash.byte_write_same]
      exact BitVec.and_allOnes
    · rwa [Flash.byte_write_ne _ _ haddr]

/-- The volume record is read from the bytes of A0. -/
theorem volume_congr {f g : Flash} (h : ∀ a, a / Config.blockBytes = 0 → g.byte a = f.byte a) :
    g.volume = f.volume := by
  have hbytes : g.bytes (headerOf volumeBlock) 0 8 = f.bytes (headerOf volumeBlock) 0 8 :=
    List.map_congr_left fun i _ => h _ (SlotRef.addr_div _ _)
  rw [Flash.volume, Flash.volume, hbytes]

theorem half_congr {f g : Flash} {x : SlotRef} (h : Fin 256)
    (hbyte : ∀ a, a / Config.blockBytes = BlockRef.index x.block → g.byte a = f.byte a) : g.half x h = f.half x h := by
  rw [Flash.half, Flash.half, hbyte _ (SlotRef.addr_div _ _), hbyte _ (SlotRef.addr_div _ _)]

theorem PartErased.refl (f : Flash) : PartErased f f := fun h => ⟨h, rfl, rfl⟩

theorem PartErased.trans {f g k : Flash} (hfg : PartErased f g) (hgk : PartErased g k) : PartErased f k := by
  intro h
  obtain ⟨hg, hbanks, hpages⟩ := hgk h
  obtain ⟨hf, hbanks', hpages'⟩ := hfg hg
  exact ⟨hf, hbanks.trans hbanks', hpages.trans hpages'⟩

theorem PartErased.of_volume {f g : Flash} (h : g.volume = f.volume) : PartErased f g := by
  intro hg
  rw [h] at hg ⊢
  exact ⟨hg, rfl, rfl⟩

theorem spoilVolume_partErased (f : Flash) (n : Nat) : PartErased f (f.spoilVolume n) := by
  intro hnew
  have hmay := f.spoilVolume_mayBecome n
  simpa [VolumeRecord.mayBecome, hnew, and_assoc] using hmay

/-! ## Bytes of the state's arrays -/

theorem flashByte_setFlash_ne (s : State) (f : Flash) {bk other : BankId} (a : Nat) (h : other ≠ bk) :
    (s.setFlash bk f).flashByte other a = s.flashByte other a := by
  rw [State.flashByte, setFlash_flash_ne s f h, State.flashByte]

theorem flash_takeFree (s : State) (bk : BankId) : s.takeFree.flash bk = s.flash bk := by cases bk <;> rfl

/-- An erase's end changes no byte outside its block. -/
theorem flashByte_eraseArray (b : BlockRef) (pass : Bool) (s : State) {bk : BankId} {a : Nat}
    (h : bk = BlockRef.bank b → a / Config.blockBytes ≠ BlockRef.index b) :
    (eraseArray b pass s).flashByte bk a = s.flashByte bk a := by
  by_cases hbk : bk = BlockRef.bank b
  · have hne := h hbk
    subst hbk
    simp only [eraseArray]
    split
    · rw [State.flashByte, setFlash_flash, Flash.byte_eraseBlock, if_neg hne, State.flashByte]
    · split
      case isTrue hvol =>
        subst hvol
        rw [State.flashByte, flash_takeFree]
        exact Flash.byte_spoilVolume_ne _ hne
      case isFalse => rw [State.flashByte, flash_takeFree, setFlash_flash, Flash.byte_spoilBlock_ne _ hne, State.flashByte]
  · simp only [eraseArray]
    split
    · exact flashByte_setFlash_ne _ _ _ hbk
    · split
      case isTrue hvol =>
        subst hvol
        rw [State.flashByte, flash_takeFree]
        exact flashByte_setFlash_ne _ _ _ hbk
      case isFalse =>
        rw [State.flashByte, flash_takeFree]
        exact flashByte_setFlash_ne _ _ _ hbk

/-- R100: an erase that passed leaves every byte of its block FFh. -/
theorem flashByte_eraseArray_pass (b : BlockRef) (s : State) {a : Nat}
    (h : a / Config.blockBytes = BlockRef.index b) : (eraseArray b true s).flashByte (BlockRef.bank b) a = 0xFF#8 := by
  show (s.setFlash _ _).flashByte _ a = _
  rw [State.flashByte, setFlash_flash, Flash.byte_eraseBlock, if_pos h]

theorem flashByte_writeHalf (s : State) {bk other : BankId} {slot : SlotRef} {h : Fin 256} (v : HalfWord) {a : Nat}
    (hne : other = bk → a ≠ slot.addr (2 * h.val) ∧ a ≠ slot.addr (2 * h.val + 1)) :
    (s.setFlash bk ((s.flash bk).writeHalf slot h v)).flashByte other a = s.flashByte other a := by
  by_cases hbk : other = bk
  · obtain ⟨h0, h1⟩ := hne hbk
    subst hbk
    rw [State.flashByte, setFlash_flash, Flash.byte_writeHalf_ne _ _ _ _ _ h0 h1, State.flashByte]
  · exact flashByte_setFlash_ne _ _ _ hbk

theorem flashByte_halfDone {bk other : BankId} (c : ReqClass) (timedOut : Bool) {slot : SlotRef} {h : Fin 256}
    (v : HalfWord) (s : State) {a : Nat}
    (hne : other = bk → a ≠ slot.addr (2 * h.val) ∧ a ≠ slot.addr (2 * h.val + 1)) :
    (halfDone bk c timedOut slot h v s).flashByte other a = s.flashByte other a := by
  rw [State.flashByte, halfDone, flash_takeFree]
  exact flashByte_writeHalf s _ hne

/-- What a program cut short leaves of its halfword (R16, R109; log 8). -/
theorem half_halfDone (bk : BankId) (c : ReqClass) (timedOut : Bool) (slot : SlotRef) (h : Fin 256) (v : HalfWord)
    (s : State) : CutLeaves c timedOut slot h v ((s.flash bk).half slot h)
      (((halfDone bk c timedOut slot h v s).flash bk).half slot h) := by
  rw [halfDone, flash_takeFree, setFlash_flash, Flash.half_writeHalf]
  exact cutHalf_leaves ..

/-- An erase of the volume engine or of the block manager that did not pass, seen from the volume record. -/
theorem eraseArray_partErased (b : BlockRef) (s : State) : PartErased s.flashA (eraseArray b false s).flashA := by
  by_cases hvol : b = volumeBlock
  · rw [eraseArray, if_neg Bool.false_ne_true, if_pos hvol]
    exact spoilVolume_partErased _ _
  · refine .of_volume (volume_congr fun a ha => flashByte_eraseArray (bk := .a) b false s fun hbk hidx =>
      hvol (eq_volumeBlock hbk (ha ▸ hidx)))

/-! ## A reset of the part (R113) -/

/-- The halfword whose program is in progress on a bank, or none. -/
theorem interruptProgram_of_writes {bk : BankId} {s : State} {c : ReqClass} {act : Action} {slot : SlotRef}
    {h : Fin 256} {v : HalfWord} (hactive : (s.bank bk).active = some { cls := c, act := act })
    (hwrites : act.writes slot h v) : interruptProgram bk s = halfDone bk c false slot h v s := by
  rcases hwrites with rfl | rfl <;> simp [interruptProgram, hactive]

/-- No halfword program in progress on the bank reaches the address. -/
def State.programSpares (s : State) (bk : BankId) (a : Nat) : Prop :=
  ∀ c act slot h v, (s.bank bk).active = some { cls := c, act := act } → act.writes slot h v →
    a ≠ slot.addr (2 * h.val) ∧ a ≠ slot.addr (2 * h.val + 1)

theorem flashByte_interruptProgram {bk other : BankId} {s : State} {a : Nat}
    (h : other = bk → s.programSpares bk a) : (interruptProgram bk s).flashByte other a = s.flashByte other a := by
  unfold interruptProgram
  split
  case h_1 c slot hw v hactive =>
    exact flashByte_halfDone c false v s fun heq => h heq c _ slot hw v hactive (.inl rfl)
  case h_2 c slot hw v hactive =>
    exact flashByte_halfDone c false v s fun heq => h heq c _ slot hw v hactive (.inr rfl)
  case h_3 => rfl
  case h_4 => rfl

theorem flashByte_interruptErase {bk other : BankId} {s : State} {a : Nat}
    (h : ¬ s.erases other (a / Config.blockBytes)) :
    (interruptErase bk s).flashByte other a = s.flashByte other a := by
  unfold interruptErase
  split
  case h_1 c hcontext =>
    exact flashByte_eraseArray _ false s fun heq hidx => h ⟨bk, c, hcontext, heq.symm, hidx.symm⟩
  case h_2 => rfl

theorem FlashFrame.erases {s t : State} (h : FlashFrame s t) (bk : BankId) (i : Nat) :
    t.erases bk i ↔ s.erases bk i := by
  simp only [State.erases, h.bank]

theorem FlashFrame.programSpares {s t : State} (h : FlashFrame s t) (bk : BankId) (a : Nat) :
    t.programSpares bk a ↔ s.programSpares bk a := by
  simp only [State.programSpares, h.bank]

theorem flashByte_interruptBank {bk other : BankId} {s : State} {a : Nat}
    (herase : ¬ s.erases other (a / Config.blockBytes)) (hprogram : other = bk → s.programSpares bk a) :
    (interruptBank bk s).flashByte other a = s.flashByte other a := by
  have hframe := interruptProgram_frame bk s
  rw [interruptBank, flashByte_interruptErase (mt (hframe.erases _ _).mp herase), flashByte_interruptProgram hprogram]

/-- R113: a reset changes a byte only in a block being erased or in the halfword being programmed. -/
theorem flashByte_interruptFlash {bk : BankId} {s : State} {a : Nat} (herase : ¬ s.erases bk (a / Config.blockBytes))
    (hprogram : s.programSpares bk a) : (interruptFlash s).flashByte bk a = s.flashByte bk a := by
  have hframe := interruptBank_frame .a s
  rw [interruptFlash, flashByte_interruptBank (mt (hframe.erases _ _).mp herase)
      fun heq => (hframe.programSpares _ _).mpr (heq ▸ hprogram),
    flashByte_interruptBank herase fun heq => heq ▸ hprogram]

/-- A block that no bank erases and that this bank's program does not concern reads as before. -/
theorem half_interruptErase {bk other : BankId} {s : State} {x : SlotRef} (h : Fin 256)
    (herase : ¬ s.erases other (BlockRef.index x.block)) :
    ((interruptErase bk s).flash other).half x h = (s.flash other).half x h :=
  half_congr h fun _ ha => flashByte_interruptErase (ha ▸ herase)

theorem half_interruptBank_ne {bk other : BankId} {s : State} {x : SlotRef} (h : Fin 256)
    (herase : ¬ s.erases other (BlockRef.index x.block)) (hne : other ≠ bk) :
    ((interruptBank bk s).flash other).half x h = (s.flash other).half x h :=
  half_congr h fun _ ha => flashByte_interruptBank (ha ▸ herase) fun heq => absurd heq hne

/-- The halfword of the program that a reset cuts short on its own bank. -/
theorem half_interruptBank {bk : BankId} {s : State} {c : ReqClass} {act : Action} {slot : SlotRef} {h : Fin 256}
    {v : HalfWord} (hactive : (s.bank bk).active = some { cls := c, act := act }) (hwrites : act.writes slot h v)
    (herase : ¬ s.erases bk (BlockRef.index slot.block)) :
    CutLeaves c false slot h v ((s.flash bk).half slot h) (((interruptBank bk s).flash bk).half slot h) := by
  have hframe := interruptProgram_frame bk s
  rw [interruptBank, half_interruptErase h (mt (hframe.erases _ _).mp herase),
    interruptProgram_of_writes hactive hwrites]
  exact half_halfDone ..

theorem half_interruptFlash {bk : BankId} {s : State} {c : ReqClass} {act : Action} {slot : SlotRef} {h : Fin 256}
    {v : HalfWord} (hactive : (s.bank bk).active = some { cls := c, act := act }) (hwrites : act.writes slot h v)
    (herase : ¬ s.erases bk (BlockRef.index slot.block)) :
    CutLeaves c false slot h v ((s.flash bk).half slot h) (((interruptFlash s).flash bk).half slot h) := by
  have hframe := interruptBank_frame .a s
  have herase' := mt (hframe.erases _ _).mp herase
  cases bk
  case a =>
    rw [interruptFlash, half_interruptBank_ne h herase' (by decide)]
    exact half_interruptBank hactive hwrites herase
  case b =>
    have hbank : ((interruptBank .a s).bank .b).active = some { cls := c, act := act } := by rwa [hframe.bank]
    have hcut := half_interruptBank hbank hwrites herase'
    rwa [half_interruptBank_ne h herase (by decide)] at hcut

/-! ## A0 at a reset of the part (R150) -/

theorem interruptErase_partErased (bk : BankId) (s : State) : PartErased s.flashA (interruptErase bk s).flashA := by
  unfold interruptErase
  split
  · exact eraseArray_partErased _ _
  · exact .refl _

/-- The program in progress on bank A, if any, lies outside A0. -/
def State.programOutsideVolume (s : State) : Prop :=
  ∀ c act slot h v, s.bankA.active = some { cls := c, act := act } → act.writes slot h v →
    BlockRef.index slot.block ≠ 0

theorem flashByte_interruptProgram_volume {bk : BankId} {s : State} {a : Nat} (h : s.programOutsideVolume)
    (ha : a / Config.blockBytes = 0) : (interruptProgram bk s).flashA.byte a = s.flashA.byte a := by
  refine flashByte_interruptProgram (bk := bk) (other := .a) fun heq c act slot hw v hactive hwrites => ?_
  subst heq
  have hidx := h c act slot hw v hactive hwrites
  constructor
  · rintro rfl
    exact hidx ((SlotRef.addr_div _ _).symm.trans ha)
  · rintro rfl
    exact hidx ((SlotRef.addr_div _ _).symm.trans ha)

theorem interruptBank_partErased (bk : BankId) {s : State} (h : s.programOutsideVolume) :
    PartErased s.flashA (interruptBank bk s).flashA :=
  (PartErased.of_volume (volume_congr fun _ ha => flashByte_interruptProgram_volume h ha)).trans
    (interruptErase_partErased bk _)

/-- From `f` to `g` bits have only been set in A0. -/
def SetsBitsOfVolume (f g : Flash) : Prop := ∀ a, a / Config.blockBytes = 0 → f.byte a &&& g.byte a = f.byte a

theorem SetsBitsOfVolume.trans {f g k : Flash} (hfg : SetsBitsOfVolume f g) (hgk : SetsBitsOfVolume g k) :
    SetsBitsOfVolume f k := by
  intro a ha
  calc f.byte a &&& k.byte a = f.byte a &&& (g.byte a &&& k.byte a) := by
        rw [← BitVec.and_assoc, hfg a ha]
    _ = f.byte a := by rw [hgk a ha, hfg a ha]

theorem SetsBitsOfVolume.of_byte {f g : Flash} (h : ∀ a, a / Config.blockBytes = 0 → g.byte a = f.byte a) :
    SetsBitsOfVolume f g := fun a ha => by rw [h a ha, BitVec.and_self]

theorem interruptErase_setsBits (bk : BankId) {s : State} (h : s.memoryWf = true) :
    SetsBitsOfVolume s.flashA (interruptErase bk s).flashA := by
  unfold interruptErase
  split
  case h_1 c hcontext =>
    by_cases hvol : c.block = volumeBlock
    · rw [eraseArray, if_neg Bool.false_ne_true, if_pos hvol]
      exact fun a ha => byte_spoilVolume_sets _ ((memoryWf_iff s).mp h .a) ha
    · refine .of_byte fun a ha => flashByte_eraseArray (bk := .a) c.block false s fun hbk hidx =>
        hvol (eq_volumeBlock hbk (ha ▸ hidx))
  case h_2 => exact .of_byte fun _ _ => rfl

theorem interruptBank_setsBits (bk : BankId) {s : State} (h : s.memoryWf = true) (hout : s.programOutsideVolume) :
    SetsBitsOfVolume s.flashA (interruptBank bk s).flashA :=
  (SetsBitsOfVolume.of_byte fun _ ha => flashByte_interruptProgram_volume hout ha).trans
    (interruptErase_setsBits bk (memoryWf_interruptProgram s bk h))

end Sys2Proof.Machine
end

section
/-! PROOF. The machine's own step, and the resets of the part: the microsecond of an empty queue (log 2), the pin reset
(R127, R129), the internal reset (R161), and what both leave in flash (R113, R150). -/

-- In order: as one text the package would start more threads than memory has stacks for.
set_option Elab.async false

namespace Sys2Proof.Machine

/-! ## The step -/

/-- Settles O1: `step` on a queue with a front command is `exec` of it by definition. -/
theorem stepRunsFrontCommand : Obligations.StepRunsFrontCommand := fun _ _ _ => rfl

theorem step_of_empty {s : State} (h : s.pending = []) : step s = .next (tick s) := by
  simp only [step, h]

theorem tickContext_eq (k : BankCtl) (c : EraseContext) : tickContext k.state c =
    { c with
      runningTime := c.runningTime + (if k.eraseRunning then 1 else 0)
      quantumTimer := if k.state = .erase then c.quantumTimer.map fun n => n - 1 else c.quantumTimer } := by
  cases hstate : k.state <;> simp [tickContext, BankCtl.eraseRunning, runDown, hstate]

theorem tickBank_eq (k : BankCtl) : tickBank k =
    { k with
      programTimer := k.programTimer.map fun n => n - 1
      suspendTimer := k.suspendTimer.map fun n => n - 1
      resetTimer := k.resetTimer.map fun n => n - 1
      context := k.context.map fun c => { c with
        runningTime := c.runningTime + (if k.eraseRunning then 1 else 0)
        quantumTimer := if k.state = .erase then c.quantumTimer.map fun n => n - 1 else c.quantumTimer } } := by
  have hcontext : tickContext k.state = _ := funext (tickContext_eq k)
  rw [tickBank, hcontext]
  rfl

theorem bank_tick (s : State) (bk : BankId) : (tick s).bank bk = tickBank (s.bank bk) := by cases bk <;> rfl

/-- Settles O2: every field of `tick`, entry by entry and bank by bank. -/
theorem idleStepPassesOneMicrosecond : Obligations.IdleStepPassesOneMicrosecond := by
  intro s hpending
  exact ⟨tick s, step_of_empty hpending, rfl, rfl, entry_tick s, rfl, rfl,
    fun bk => by rw [bank_tick, tickBank_eq], rfl, rfl, rfl, rfl, rfl, rfl, rfl, rfl, rfl, rfl, rfl, hpending⟩

/-! ## The reset values -/

theorem entry_of_staging_reset {s : State} (h : s.staging = .reset) (i : Fin 8) : s.entry i = Entry.blank := by
  rw [State.entry, h]
  exact Vector.getElem_replicate _

theorem counter_of_reset {s : State} (h : s.mgmt.counters = Vector.replicate 10 0) (c : Counter) :
    s.counter c = 0#32 := by
  rw [State.counter, h]
  exact Vector.getElem_replicate _

/-- Settles O3. -/
theorem resetMeetsInvariants : Obligations.ResetMeetsInvariants := by
  refine ⟨⟨memoryWf_reset, by decide, by decide⟩, List.nodup_nil, fun i => ?_, nofun⟩
  rw [entry_of_staging_reset rfl]
  simp [State.reset, Staging.reset, Entry.blank]

/-- Settles O8: `pinReset` field by field. -/
theorem pinResetLeavesResetValues : Obligations.PinResetLeavesResetValues := by
  intro banks s
  exact ⟨pinReset banks s, rfl, rfl, rfl, rfl, rfl, rfl, entry_of_staging_reset rfl, rfl, rfl, rfl, rfl, rfl,
    fun bk => by cases bk <;> rfl, rfl, rfl, rfl, rfl, counter_of_reset rfl, rfl, rfl, rfl⟩

/-! ## What a pin reset leaves in flash -/

theorem pinReset_flash (banks : Strap) (s : State) (bk : BankId) :
    (pinReset banks s).flash bk = (interruptFlash s).flash bk := by cases bk <;> rfl

/-- Settles O9: a pin reset leaves the arrays of `interruptFlash`. Each bank's program is cut short in its halfword,
each erase in its block; in A0 both banks' erase contexts count. -/
theorem pinResetCutsFlashWorkShort : Obligations.PinResetCutsFlashWorkShort := by
  intro banks s t bk hexec
  obtain rfl : pinReset banks s = t := by
    rcases hexec with h | h <;> exact Host.Outcome.next.inj h
  refine ⟨fun a herase hprogram => ?bytes, fun c act slot h v hactive hwrites herase => ?halfword, fun hout => ?volume⟩
  case bytes =>
    rw [State.flashByte, pinReset_flash]
    exact flashByte_interruptFlash herase hprogram
  case halfword =>
    rw [pinReset_flash]
    exact half_interruptFlash hactive hwrites herase
  case volume =>
    have hout' : (interruptBank .a s).programOutsideVolume := by
      intro c act slot h v hactive
      rw [show (interruptBank .a s).bankA = s.bankA from (interruptBank_frame .a s).bank .a] at hactive
      exact hout c act slot h v hactive
    refine ⟨(interruptBank_partErased .a hout).trans (interruptBank_partErased .b hout'), fun hwf => ?_⟩
    exact (interruptBank_setsBits .a hwf hout).trans
      (interruptBank_setsBits .b (memoryWf_interruptErase _ _ (memoryWf_interruptProgram _ _ hwf)) hout')

/-! ## The begin of a mount -/

/-- A bank controller that has begun a bank reset with this timeout (R110). -/
def BankCtl.beginReset (k : BankCtl) (timeout : Nat) : BankCtl :=
  { k with state := .resetting, active := none, programTimer := none, suspendTimer := none, resetTimer := some timeout }

theorem beginReset_inReset (k : BankCtl) (timeout : Nat) : (k.beginReset timeout).inReset timeout :=
  ⟨rfl, rfl, rfl, rfl, rfl⟩

/-- The volume engine's work at the start of a mount (R135). -/
def mountStart (strap : Strap) : MountWork :=
  { a := .start .resetting, b := .start (if strapPresent strap .b then .resetting else .absent), valid := false,
    repaired := false, condemned := [] }

theorem beginMount_of_two {s : State} (h : s.service.strap = .two) : beginMount s =
    { s with
      engine := .mount (mountStart .two)
      bankA := s.bankA.beginReset s.mgmt.params.programTimeout
      bankB := s.bankB.beginReset s.mgmt.params.programTimeout } := by
  simp only [beginMount, h, mountStart]
  rfl

theorem beginMount_of_one {s : State} (h : s.service.strap = .one) : beginMount s =
    { s with
      engine := .mount (mountStart .one)
      bankA := s.bankA.beginReset s.mgmt.params.programTimeout } := by
  simp only [beginMount, h, mountStart]
  rfl

theorem strap_cases (x : Strap) : x = .one ∨ x = .two := by cases x <;> simp

theorem beginMount_engine (s : State) : (beginMount s).engine = .mount (mountStart s.service.strap) := by
  rcases strap_cases s.service.strap with h | h
  · rw [beginMount_of_one h, h]
  · rw [beginMount_of_two h, h]

theorem beginMount_bankA (s : State) :
    (beginMount s).bankA = s.bankA.beginReset s.mgmt.params.programTimeout := by
  rcases strap_cases s.service.strap with h | h
  · rw [beginMount_of_one h]
  · rw [beginMount_of_two h]

theorem beginMount_bankB (s : State) : (beginMount s).bankB =
    if s.service.strap = .two then s.bankB.beginReset s.mgmt.params.programTimeout else s.bankB := by
  rcases strap_cases s.service.strap with h | h
  · rw [beginMount_of_one h]; simp [h]
  · rw [beginMount_of_two h]; simp [h]

theorem mountStart_b_phase (strap : Strap) :
    (mountStart strap).b.phase = if strap = .two then .resetting else .absent := by
  cases strap <;> rfl

/-! ## The internal reset -/

theorem internalReset_frame (s : State) : EngineFrame (resetBlocks s) (internalReset s) := beginMount_frame _

theorem portAtInternalReset_of_holding {p : Port} {c : Cycle} (hstate : p.state = .holding) (hc : p.cycle = some c) :
    portAtInternalReset p = { state := .done, holdTimer := none, cycle := some { c with
      wait := .none
      outcome := some { fault := true, data := if c.kind = .read then some 0xFFFF#16 else none } } } := by
  simp [portAtInternalReset, hstate, hc]

theorem portAtInternalReset_of_not_holding {p : Port} (hstate : p.state ≠ .holding) : portAtInternalReset p = p := by
  unfold portAtInternalReset
  split
  case h_1 hholding _ => exact absurd hholding hstate
  case h_2 => rfl

theorem internalReset_bank (s : State) (bk : BankId) : (internalReset s).bank bk =
    if bk = .a ∨ s.pins.banks = .two then BankCtl.reset.beginReset s.mgmt.params.programTimeout else .reset := by
  cases bk
  · rw [if_pos (.inl rfl)]
    exact beginMount_bankA (resetBlocks s)
  · simp only [reduceCtorEq, false_or]
    exact beginMount_bankB (resetBlocks s)

theorem flashByte_internalReset (s : State) (bk : BankId) (a : Nat) :
    (internalReset s).flashByte bk a = (interruptFlash s).flashByte bk a := by
  have hbase := beginMount_base (resetBlocks s)
  simp only [State.base, Base.mk.injEq] at hbase
  obtain ⟨-, hA, hB, -⟩ := hbase
  cases bk
  · exact congrArg (Flash.byte · a) hA
  · exact congrArg (Flash.byte · a) hB

/-- Settles O11: the mount that begins touches the volume engine and the banks alone; all else is `resetBlocks`. -/
theorem internalResetLeavesResetValues : Obligations.InternalResetLeavesResetValues := by
  intro s
  have hframe := internalReset_frame s
  have hstaging : (internalReset s).staging = .reset := hframe.staging
  have hmgmt := hframe.mgmt
  refine ⟨hframe.pins, hframe.service, hframe.drain, entry_of_staging_reset hstaging,
    congrArg Staging.nextOpen hstaging, congrArg Staging.queue hstaging, hframe.pageMap, hframe.mover, hframe.blocks,
    (congrArg Mgmt.params hmgmt).trans rfl, (congrArg Mgmt.alertMask hmgmt).trans rfl,
    (congrArg Mgmt.receiver hmgmt).trans rfl, (congrArg Mgmt.flags hmgmt).trans rfl, counter_of_reset (congrArg Mgmt.counters hmgmt), fun bk => ?banks, ?engine,
    fun c hstate hc => ?holding, fun hstate => ?notHolding, fun bk a herase hprogram => ?flash, ?now, ?pending⟩
  case banks =>
    rw [internalReset_bank]
    split
    case isTrue h => simp only [h]; rfl
    case isFalse h => simp only [h]; rfl
  case engine => exact ⟨_, beginMount_engine _, rfl, mountStart_b_phase _, rfl, rfl⟩
  case holding => exact hframe.port.trans (portAtInternalReset_of_holding hstate hc)
  case notHolding => exact hframe.port.trans (portAtInternalReset_of_not_holding hstate)
  case flash =>
    rw [flashByte_internalReset]
    exact flashByte_interruptFlash herase hprogram
  case now => rw [hframe]; rfl
  case pending => rw [hframe]; rfl

end Sys2Proof.Machine
end

section
/-! PROOF. Host cycles as they arrive (R115 to R122): which are taken, which complete at once, and which wait for the
mount or for a bank; the release of RESET, which takes the strobes that the pins hold (R127). -/

-- In order: as one text the package would start more threads than memory has stacks for.
set_option Elab.async false

namespace Sys2Proof.Machine

/-! ## Arrival -/

/-- The state with a HOLDING cycle at its port, its hold timer started (R115). -/
def State.withCycle (s : State) (c : Cycle) : State :=
  { s with port := { state := .holding, holdTimer := some c.holdLimit, cycle := some c } }

/-- The state in which a cycle that the strobes now asserted make is treated (R115). -/
def State.arriving (s : State) (x : Strobes) (c : Cycle) : State := (s.withStrobes x).withCycle c

theorem assertStrobes_of_idle {s : State} (x : Strobes) (h : s.port.state = .idle) :
    assertStrobes x s = arriveFromPins (s.withStrobes x) := by
  simp only [assertStrobes, h]
  rfl

theorem assertStrobes_of_inReset {s : State} (x : Strobes) (h : s.port.state = .inReset) :
    assertStrobes x s = s.withStrobes x := by
  simp only [assertStrobes, h]
  rfl

theorem assertStrobes_of_busy {s : State} (x : Strobes) (h : s.port.state = .holding ∨ s.port.state = .done) :
    assertStrobes x s = s := by
  rcases h with h | h <;> simp only [assertStrobes, h]

theorem exec_hostReadArrival {s : State} (a : BitVec 22) (lo up : Bool) (h : s.port.state = .idle) :
    exec (.hostReadArrival a lo up) s = .next (treatCycle (newCycle .read a lo up none s)
      (s.arriving (.read a lo up) (newCycle .read a lo up none s))) :=
  congrArg Host.Outcome.next (assertStrobes_of_idle (.read a lo up) h)

theorem exec_hostWriteArrival {s : State} (a : BitVec 22) (lo up : Bool) (d : HalfWord) (h : s.port.state = .idle) :
    exec (.hostWriteArrival a lo up d) s = .next (treatCycle (newCycle .write a lo up (some d) s)
      (s.arriving (.write a lo up d) (newCycle .write a lo up (some d) s))) :=
  congrArg Host.Outcome.next (assertStrobes_of_idle (.write a lo up d) h)

theorem exec_cycleBothStrobes {s : State} (a : BitVec 22) (lo up : Bool) (h : s.port.state = .idle) :
    exec (.cycleBothStrobes a lo up) s = .next ((s.withStrobes (.both a lo up)).withDone
      (newCycle .both a lo up none s) true none) :=
  congrArg Host.Outcome.next (assertStrobes_of_idle (.both a lo up) h)

/-- Settles O12: `assertStrobes` by the state of the port. -/
theorem arrivalsAreTakenInIdle : Obligations.ArrivalsAreTakenInIdle := by
  intro s a lo up d
  refine ⟨fun hbusy => ⟨?_, ?_, ?_⟩, fun hreset => ⟨?_, ?_, ?_⟩, exec_cycleBothStrobes a lo up⟩
  · exact congrArg Host.Outcome.next (assertStrobes_of_busy _ hbusy)
  · exact congrArg Host.Outcome.next (assertStrobes_of_busy _ hbusy)
  · exact congrArg Host.Outcome.next (assertStrobes_of_busy _ hbusy)
  · exact congrArg Host.Outcome.next (assertStrobes_of_inReset _ hreset)
  · exact congrArg Host.Outcome.next (assertStrobes_of_inReset _ hreset)
  · exact congrArg Host.Outcome.next (assertStrobes_of_inReset _ hreset)

/-! ## Treatment by the service state (R117, R118) -/

theorem treatCycle_of_mounting {s : State} (c : Cycle) (h : s.service.state = .mounting) :
    treatCycle c s = setWait .mount s := by
  simp only [treatCycle, h]

/-- R117: the states in which no volume is in force. -/
def State.withoutVolume (s : State) : Prop :=
  s.service.state = .unformatted ∨ s.service.state = .formatting ∨
    (s.service.state = .drained ∧ s.drain.returnState ≠ some .active)

theorem treatCycle_of_withoutVolume {s : State} (c : Cycle) (h : s.withoutVolume) :
    treatCycle c s = treatNoVolume (s.service.state == .formatting) c s := by
  rcases h with h | h | ⟨h, hreturn⟩
  · simp only [treatCycle, h]; rfl
  · simp only [treatCycle, h]; rfl
  · have hnot : s.volumeMounted = false := by simp [State.volumeMounted, h, hreturn]
    simp only [treatCycle, h, hnot]
    rfl

theorem treatCycle_of_volumeMounted {s : State} (c : Cycle) (h : s.volumeMounted = true) :
    treatCycle c s = if s.capacity ≤ c.page then faultRange c s else treatInRange c s := by
  cases hstate : s.service.state <;> simp_all [treatCycle, State.volumeMounted]

theorem treatCycle_arriving_of_mounting {s : State} (x : Strobes) (c : Cycle) (h : s.service.state = .mounting) :
    treatCycle c (s.arriving x c) = setWait .mount (s.arriving x c) := treatCycle_of_mounting c h

theorem treatCycle_arriving_of_withoutVolume {s : State} (x : Strobes) (c : Cycle) (h : s.withoutVolume) :
    treatCycle c (s.arriving x c) = treatNoVolume (s.service.state == .formatting) c (s.arriving x c) :=
  treatCycle_of_withoutVolume c h

theorem treatCycle_arriving_of_beyond {s : State} (x : Strobes) (c : Cycle) (h : s.volumeMounted = true)
    (hpage : s.capacity ≤ c.page) : treatCycle c (s.arriving x c) = faultRange c (s.arriving x c) :=
  (treatCycle_of_volumeMounted (s := s.arriving x c) c h).trans (if_pos hpage)

theorem treatCycle_arriving_of_inRange {s : State} (x : Strobes) (c : Cycle) (h : s.volumeMounted = true)
    (hpage : c.page < s.capacity) : treatCycle c (s.arriving x c) = treatInRange c (s.arriving x c) :=
  (treatCycle_of_volumeMounted (s := s.arriving x c) c h).trans (if_neg (Nat.not_le.mpr hpage))

/-- Settles O13: the port is HOLDING with the new cycle when `treatCycle` takes it. -/
theorem arrivalsWithoutAVolume : Obligations.ArrivalsWithoutAVolume := by
  intro s a lo up d hidle
  refine ⟨fun hmounting => ⟨?_, ?_⟩, fun hnone => ⟨?_, ?_⟩⟩
  · rw [exec_hostReadArrival a lo up hidle, treatCycle_arriving_of_mounting _ _ hmounting]
    rfl
  · rw [exec_hostWriteArrival a lo up d hidle, treatCycle_arriving_of_mounting _ _ hmounting]
    rfl
  · rw [exec_hostReadArrival a lo up hidle, treatCycle_arriving_of_withoutVolume _ _ hnone]
    rfl
  · rw [exec_hostWriteArrival a lo up d hidle, treatCycle_arriving_of_withoutVolume _ _ hnone]
    rfl

/-- Settles O14: the range check comes first wherever a volume is in force. -/
theorem rangeFaultsPagesBeyondCapacity : Obligations.RangeFaultsPagesBeyondCapacity := by
  intro s a lo up d hidle hvolume hpage
  refine ⟨?_, ?_⟩
  · rw [exec_hostReadArrival a lo up hidle, treatCycle_arriving_of_beyond _ _ hvolume hpage]
    rfl
  · rw [exec_hostWriteArrival a lo up d hidle, treatCycle_arriving_of_beyond _ _ hvolume hpage]
    rfl

/-! ## Cycles in range -/

theorem exec_hostReadArrival_inRange {s : State} {a : BitVec 22} (lo up : Bool) (h : s.inRange a) :
    exec (.hostReadArrival a lo up) s = .next (resolveRead (newCycle .read a lo up none s)
      (s.arriving (.read a lo up) (newCycle .read a lo up none s))) := by
  obtain ⟨hidle, hvolume, hpage⟩ := h
  rw [exec_hostReadArrival a lo up hidle, treatCycle_arriving_of_inRange _ _ hvolume hpage]
  rfl

/-- R117, R120: a write is handed to the staging buffer in ACTIVE with the latch clear, and refused otherwise. -/
theorem exec_hostWriteArrival_inRange {s : State} {a : BitVec 22} (lo up : Bool) (d : HalfWord) (h : s.inRange a) :
    exec (.hostWriteArrival a lo up d) s =
      .next (if s.service.state = .active ∧ s.service.latch.isSet = false then
        stageWrite (newCycle .write a lo up (some d) s)
          (s.arriving (.write a lo up d) (newCycle .write a lo up (some d) s))
      else ((s.withStrobes (.write a lo up d)).withDone (newCycle .write a lo up (some d) s) true none).setFlag
        .writeRefused) := by
  obtain ⟨hidle, hvolume, hpage⟩ := h
  rw [exec_hostWriteArrival a lo up d hidle, treatCycle_arriving_of_inRange _ _ hvolume hpage]
  rfl

/-- Settles O15. -/
theorem writesThatStageNothing : Obligations.WritesThatStageNothing := by
  intro s a lo up d hrange
  refine ⟨fun hrefused => ?_, fun hactive hclear => ?_⟩
  · have hnot : ¬ (s.service.state = .active ∧ s.service.latch.isSet = false) := by
      rintro ⟨hactive, hclear⟩
      simp [hactive, hclear] at hrefused
    rw [exec_hostWriteArrival_inRange lo up d hrange, if_neg hnot]
  · rw [exec_hostWriteArrival_inRange false false d hrange, if_pos ⟨hactive, hclear⟩]
    rfl

/-! ## Reads (R121, R122) -/

/-- A read with what its resolution takes: the staged bytes and the slot (R121). -/
def State.resolved (s : State) (c : Cycle) : Cycle :=
  { c with
    stagedLow := s.forward c.page c.offset
    stagedHigh := s.forward c.page (c.offset + 1)
    slot := (s.mapped c.page).map fun e => e.slot }

theorem resolveRead_of_no_bank {s : State} {c : Cycle}
    (h : s.mapped c.page = none ∨
      ((s.forward c.page c.offset).isSome = true ∧ (s.forward c.page (c.offset + 1)).isSome = true)) :
    resolveRead c s = completeRead (s.resolved c) 0xFFFF#16 (setCycle (s.resolved c) s) := by
  simp only [resolveRead, State.resolved]
  split
  · rfl
  case isFalse hstaged =>
    rcases h with hnone | ⟨hlow, hhigh⟩
    · simp [hnone]
    · simp [hlow, hhigh] at hstaged

/-- Settles O16: no bank is asked, and the byte not supplied reads FFh. -/
theorem readsThatNeedNoBank : Obligations.ReadsThatNeedNoBank := by
  intro s a lo up hrange hno
  rw [exec_hostReadArrival_inRange lo up hrange, resolveRead_of_no_bank
    (s := s.arriving (.read a lo up) (newCycle .read a lo up none s)) (c := newCycle .read a lo up none s) hno]
  rfl

theorem resolveRead_of_bank {s : State} {c : Cycle} {e : MapEntry} (hmap : s.mapped c.page = some e)
    (hread : (s.bank e.slot.bank).hostRead = none)
    (hstaged : ((s.forward c.page c.offset).isSome && (s.forward c.page (c.offset + 1)).isSome) = false) :
    resolveRead c s = kickBank e.slot.bank (handHostRead e.slot c.offset
      (setCycle { s.resolved c with wait := .bank, handed := true } s)) := by
  simp only [resolveRead, hstaged, hmap, Option.map_some, State.resolved]
  have hbank : ∀ x : Cycle, ((setCycle x s).bank e.slot.bank).hostRead = none := fun x => hread
  simp only [Bool.false_eq_true, if_false, askBank, hbank]
  rfl

/-! ## The bank's consideration of a host read handed to it (R98, R103) -/

theorem markBegun_hostRead (k : BankCtl) (c : ReqClass) : (k.markBegun c).hostRead = k.hostRead := by
  cases c <;> rfl

/-- A bank's choice leaves the host read in its slot until its data returns (R97). -/
theorem beginAction_hostRead (bk : BankId) (c : ReqClass) (a : Action) (s : State) :
    ((beginAction bk c a s).bank bk).hostRead = (s.bank bk).hostRead := by
  simp [beginAction, markBegun_hostRead]

theorem beginClass_hostRead (bk : BankId) (c : ReqClass) (s : State) :
    ((beginClass bk c s).bank bk).hostRead = (s.bank bk).hostRead := by
  unfold beginClass
  split
  · exact beginAction_hostRead ..
  · rfl

theorem kickBank_hostRead (bk : BankId) (s : State) :
    ((kickBank bk s).bank bk).hostRead = (s.bank bk).hostRead := by
  simp only [kickBank]
  split
  case h_1 => rfl
  case h_2 =>
    split
    case h_1 =>
      simp only [chooseIdle]
      split
      · exact beginAction_hostRead ..
      · split
        · exact beginClass_hostRead ..
        · split
          · split
            · rfl
            · simp [beginErase]
          · rfl
    case h_2 =>
      split
      case h_1 =>
        simp only [chooseSuspended]
        split
        · exact beginAction_hostRead ..
        · split
          · exact beginClass_hostRead ..
          · split
            · rfl
            · simp [resumeErase]
      case h_2 => rfl
    case h_3 =>
      split
      case h_1 =>
        unfold decideSuspend
        split
        · simp [requestSuspend]
        · rfl
      case h_2 => rfl
    all_goals rfl

/-- R98: an IDLE bank serves the host read first. -/
theorem kickBank_of_hostRead_idle {s : State} {bk : BankId} {h : HostRead} (hactive : (s.bank bk).active = none)
    (hstate : (s.bank bk).state = .idle) (hread : (s.bank bk).hostRead = some h) :
    kickBank bk s = beginHostRead bk h s := by
  simp only [kickBank, hactive, hstate, chooseIdle, hread]

theorem bank_beginHostRead_idle {s : State} {bk : BankId} (h : HostRead) (hstate : (s.bank bk).state = .idle) :
    ((beginHostRead bk h s).bank bk).state = .read ∧
      ((beginHostRead bk h s).bank bk).active = some { cls := .host, act := .read h.slot h.offset 2 } := by
  simp [beginHostRead, beginAction, Action.isProgram, hstate]

theorem kickBank_of_erase {s : State} {bk : BankId} {c : EraseContext} (hactive : (s.bank bk).active = none)
    (hstate : (s.bank bk).state = .erase) (hcontext : (s.bank bk).context = some c) :
    kickBank bk s = decideSuspend bk c s := by
  simp only [kickBank, hactive, hstate, hcontext]

theorem readWaits_of_hostRead {k : BankCtl} {h : HostRead} (hread : k.hostRead = some h) : k.readWaits = true := by
  simp [BankCtl.readWaits, hread]

/-- R103: the decision of a bank in ERASE. -/
theorem decideSuspend_eq (bk : BankId) (c : EraseContext) (s : State) : decideSuspend bk c s =
    if (s.bank bk).readWaits = true ∧ c.quantumTimer = none ∧ c.suspendCount < c.suspendLimit then
      requestSuspend bk .read c.powerHold s
    else s := by
  simp [decideSuspend, and_assoc]

theorem requestSuspend_eq {bk : BankId} {s : State} {c : EraseContext} (cause : SuspendCause) (hold : Bool)
    (hcontext : (s.bank bk).context = some c) : requestSuspend bk cause hold s = s.setBank bk { s.bank bk with
      state := .suspending
      context := some { c with cause := cause, powerHold := hold }
      suspendTimer := some s.mgmt.params.programTimeout } := by
  simp [requestSuspend, hcontext]

/-! ## A read handed to its bank -/

/-- The state in which the bank considers a read handed to it (R98, R122). -/
def State.askedBank (s : State) (c : Cycle) (slot : SlotRef) : State :=
  handHostRead slot c.offset (setCycle { s.resolved c with wait := .bank, handed := true } s)

theorem bank_askedBank (s : State) (c : Cycle) (slot : SlotRef) : (s.askedBank c slot).bank slot.bank =
    { s.bank slot.bank with hostRead := some { slot := slot, offset := c.offset, withdrawn := false } } := by
  rw [State.askedBank, handHostRead, setBank_bank]
  cases slot.bank <;> rfl

theorem askedBank_mgmt (s : State) (c : Cycle) (slot : SlotRef) : (s.askedBank c slot).mgmt = s.mgmt := by
  simp [State.askedBank, handHostRead]

theorem kickBank_askedBank (s : State) (c : Cycle) (slot : SlotRef) :
    kickBank slot.bank (s.askedBank c slot) =
      { s.setBank slot.bank ((kickBank slot.bank (s.askedBank c slot)).bank slot.bank) with
        port := { s.port with cycle := some { s.resolved c with wait := .bank, handed := true } } } := by
  refine Eq.trans (kickBank_oneBank slot.bank (s.askedBank c slot)) ?_
  generalize (kickBank slot.bank (s.askedBank c slot)).bank slot.bank = k
  rw [State.askedBank, handHostRead]
  cases slot.bank <;> rfl

/-- Settles O18: the cycle waits with its read in the bank's slot, and the bank's choice is made on that state. -/
theorem readsAreHandedToTheirBank : Obligations.ReadsAreHandedToTheirBank := by
  intro s a lo up e hrange hmap hread hstaged
  let c := newCycle .read a lo up none s
  let u := s.arriving (.read a lo up) c
  have hbankOf : ∀ bk, u.bank bk = s.bank bk := fun bk => by cases bk <;> rfl
  have hresolve : resolveRead c u = kickBank e.slot.bank (u.askedBank c e.slot) :=
    resolveRead_of_bank (s := u) (c := c) hmap (by rw [hbankOf]; exact hread) hstaged
  have hkick := kickBank_askedBank u c e.slot
  have hport : (kickBank e.slot.bank (u.askedBank c e.slot)).port =
      { u.port with cycle := some { u.resolved c with wait := .bank, handed := true } } := congrArg State.port hkick
  have hbank := bank_askedBank u c e.slot
  rw [hbankOf] at hbank
  refine ⟨kickBank e.slot.bank (u.askedBank c e.slot), ?exec, ?frame, ?port, ?slot, fun hstate hactive => ?idle,
    fun x hstate hactive hcontext => ?erase⟩
  case exec => rw [exec_hostReadArrival_inRange lo up hrange, hresolve]
  case frame =>
    rw [hport]
    refine hkick.trans ?_
    generalize (kickBank e.slot.bank (u.askedBank c e.slot)).bank e.slot.bank = k
    cases e.slot.bank <;> rfl
  case port =>
    have hslot : (u.resolved c).slot = some e.slot := congrArg (Option.map fun m : MapEntry => m.slot) hmap
    rw [hport, ← hslot]
    rfl
  case slot => rw [kickBank_hostRead, hbank]; rfl
  case idle =>
    rw [kickBank_of_hostRead_idle (by rw [hbank]; exact hactive) (by rw [hbank]; exact hstate) (by rw [hbank])]
    exact bank_beginHostRead_idle _ (by rw [hbank]; exact hstate)
  case erase =>
    have hcontext' : ((u.askedBank c e.slot).bank e.slot.bank).context = some x := by rw [hbank]; exact hcontext
    have hwaits : ((u.askedBank c e.slot).bank e.slot.bank).readWaits = true := by
      rw [hbank]; exact readWaits_of_hostRead rfl
    rw [kickBank_of_erase (by rw [hbank]; exact hactive) (by rw [hbank]; exact hstate) hcontext', decideSuspend_eq,
      requestSuspend_eq _ _ hcontext']
    refine ⟨fun hquantum hcount => ?_, fun hno => ?_⟩
    · rw [if_pos ⟨hwaits, hquantum, hcount⟩, setBank_bank]
      exact ⟨rfl, rfl, by rw [askedBank_mgmt]; rfl⟩
    · have hnot : ¬ (((u.askedBank c e.slot).bank e.slot.bank).readWaits = true ∧ x.quantumTimer = none ∧
          x.suspendCount < x.suspendLimit) := fun ⟨_, hquantum, hcount⟩ =>
        hno.elim (fun h => h hquantum) fun h => Nat.not_lt.mpr h hcount
      rw [if_neg hnot, hbank]
      exact ⟨hstate, hcontext⟩

end Sys2Proof.Machine
end

section
/-! PROOF. Writes handed to the staging buffer (R24 to R30): merged into the page's GATHERING entry, opened in the
lowest EMPTY one, or held when there is neither; and the expiry of an entry's timers (R32, R33). -/

-- In order: as one text the package would start more threads than memory has stacks for.
set_option Elab.async false

namespace Sys2Proof.Machine

/-! ## A write that is taken -/

theorem inRange_of_takesWrite {s : State} {a : BitVec 22} {lo up : Bool} (h : s.takesWrite a lo up) : s.inRange a := by
  obtain ⟨hidle, hactive, -, hpage, -⟩ := h
  exact ⟨hidle, by simp [State.volumeMounted, hactive], hpage⟩

/-- The state in which a write that arrives is treated. -/
def State.writing (s : State) (a : BitVec 22) (lo up : Bool) (d : HalfWord) : State :=
  s.arriving (.write a lo up d) (newCycle .write a lo up (some d) s)

theorem exec_hostWriteArrival_taken {s : State} {a : BitVec 22} {lo up : Bool} (d : HalfWord)
    (h : s.takesWrite a lo up) : exec (.hostWriteArrival a lo up d) s =
      .next (settle (handWrite (newCycle .write a lo up (some d) s) (s.writing a lo up d))) := by
  have hrange := inRange_of_takesWrite h
  obtain ⟨-, hactive, hclear, -, hlane⟩ := h
  rw [exec_hostWriteArrival_inRange lo up d hrange, if_pos ⟨hactive, hclear⟩]
  have hsome : (!lo && !up) = false := by rw [← Bool.not_or, hlane]; rfl
  show Host.Outcome.next (if !lo && !up then _ else _) = _
  rw [hsome]
  rfl

/-! ## Merging (R26, R28, R29) -/

/-- R26: each enabled byte is stored at its offset and no other staged byte changes. -/
theorem assocGet_stageBytes (staged : List (Nat × Byte)) (o : Nat) (lo up : Bool) (d : HalfWord) (k : Nat) :
    assocGet (stageBytes staged o lo up d) k =
      if up = true ∧ k = o + 1 then some d.high
      else if lo = true ∧ k = o then some d.low
      else assocGet staged k := by
  have hlow : assocGet (if lo then assocSet staged o d.low else staged) k =
      if lo = true ∧ k = o then some d.low else assocGet staged k := by
    cases lo
    · simp
    · by_cases hk : k = o
      · simp [hk]
      · simp [hk, assocGet_assocSet_ne]
  simp only [stageBytes]
  cases up
  · simpa using hlow
  · by_cases hk : k = o + 1
    · simp [hk]
    · simpa [hk, assocGet_assocSet_ne] using hlow

/-- The state after a merge, before the entry may close: the bytes stored, the write counted and the cycle done. -/
def State.merged (s : State) (i : Fin 8) (e : Entry) (c : Cycle) : State :=
  ((s.setEntry i e).bump .hostWrites).withDone c false none

theorem mergeWrite_eq {s : State} {i : Fin 8} {e : Entry} {c : Cycle} {o : Nat} {lo up : Bool} {d : HalfWord}
    (he : mergedEntry (s.entry i) s.mgmt.params.commitDelay o lo up d = e) (hc : s.port.cycle = some c)
    (hstate : e.state = .gathering) : mergeWrite i o lo up d s =
      if e.staged.length = 512 ∨ s.mgmt.params.commitDelay = 0 then (s.merged i e c).withClosed i
      else s.merged i e c := by
  have hdone : completeCycle false none ((s.setEntry i e).bump .hostWrites) = s.merged i e c :=
    completeCycle_of_cycle false none hc
  simp only [mergeWrite, he, hdone, Config.pageBytes]
  refine if_congr Iff.rfl (closeEntry_of_gathering ?_) rfl
  exact (congrArg Entry.state (entry_setEntry s i e)).trans hstate

theorem absorbWrite_of_gathering {s : State} {c : Cycle} {i : Fin 8} (h : s.gatheringFor c.page = some i) :
    absorbWrite c s = some (mergeWrite i c.offset c.lower c.upper (c.data.getD 0xFFFF#16) s) := by
  simp only [absorbWrite, h]

theorem handWrite_of_absorbed {s t : State} {c : Cycle} (h : absorbWrite c s = some t) : handWrite c s = t := by
  simp only [handWrite, h]

theorem gathering_of_gatheringFor {s : State} {page : Nat} {i : Fin 8} (h : s.gatheringFor page = some i) :
    (s.entry i).state = .gathering := by
  have := findEntry_some h
  simp only [Bool.and_eq_true, beq_iff_eq] at this
  exact this.1

/-- Settles O20: `mergeWrite_eq` at the arriving write, with the staged bytes of `stageBytes`. -/
theorem writesMergeIntoTheGatheringEntry : Obligations.WritesMergeIntoTheGatheringEntry := by
  intro s a lo up d i htakes hfor
  refine ⟨stageBytes (s.entry i).staged (offsetOf a) lo up d, assocGet_stageBytes _ _ lo up d, ?_⟩
  have habsorb : absorbWrite (newCycle .write a lo up (some d) s) (s.writing a lo up d) = _ :=
    absorbWrite_of_gathering hfor
  refine (exec_hostWriteArrival_taken d htakes).trans (congrArg (fun t => Host.Outcome.next (settle t)) ?_)
  refine (handWrite_of_absorbed habsorb).trans ?_
  exact mergeWrite_eq (s := s.writing a lo up d) (o := offsetOf a) (lo := lo) (up := up) (d := d) rfl rfl
    (gathering_of_gatheringFor hfor)

/-! ## Opening (R24, R27) -/

/-- The lowest-numbered entry with a property is the one found. -/
theorem findEntry_eq_some_of_lowest {s : State} {p : Entry → Bool} {i : Fin 8} (hi : p (s.entry i) = true)
    (hlow : ∀ j, j < i → p (s.entry j) = false) : s.findEntry p = some i := by
  have hsplit : entryNumbers = (entryNumbers.filter fun j => j < i) ++ i :: entryNumbers.filter fun j => i < j := by
    clear hi hlow; revert i; decide
  rw [State.findEntry, hsplit, List.find?_append, List.find?_cons_of_pos (p := fun j => p (s.entry j)) hi]
  refine Option.or_eq_right_of_none (List.find?_eq_none.mpr fun j hj => ?_)
  have hlt := (List.mem_filter.mp hj).2
  simp [hlow j (by simpa using hlt)]

theorem absorbWrite_of_empty {s : State} {c : Cycle} {i : Fin 8} (hnone : s.gatheringFor c.page = none)
    (hempty : s.emptyEntry = some i) : absorbWrite c s =
      some (mergeWrite i c.offset c.lower c.upper (c.data.getD 0xFFFF#16) (openEntry i c.page s)) := by
  simp only [absorbWrite, hnone, hempty]

theorem stageBytes_nil (o : Nat) (lo up : Bool) (d : HalfWord) :
    stageBytes [] o lo up d = (if lo then [(o, d.low)] else []) ++ (if up then [(o + 1, d.high)] else []) := by
  cases lo <;> cases up <;> simp [stageBytes, assocSet]

theorem length_stageBytes_nil (o : Nat) (lo up : Bool) (d : HalfWord) : (stageBytes [] o lo up d).length ≠ 512 := by
  rw [stageBytes_nil]
  cases lo <;> cases up <;> simp

/-- An entry opened for a page (R27). -/
def openedEntry (page : Nat) (s : State) : Entry :=
  { state := .gathering, page := some page, staged := [], openSeq := s.staging.nextOpen
    idle := if s.mgmt.params.commitDelay = 0 then none else some s.mgmt.params.commitDelay
    age := some (1000 * s.mgmt.params.ageLimit), attempts := 0, cohort := false }

theorem entry_openEntry (i : Fin 8) (page : Nat) (s : State) : (openEntry i page s).entry i = openedEntry page s :=
  entry_setEntry s i _

/-- A merge into the entry just opened replaces it. -/
theorem merged_openEntry (i : Fin 8) (page : Nat) (s : State) (e : Entry) (c : Cycle) :
    (openEntry i page s).merged i e c =
      (let w := (s.withDone c false none).setEntry i e
       ({ w with staging := { w.staging with nextOpen := s.staging.nextOpen + 1#32 } } : State).bump .hostWrites) := by
  simp only [State.merged, openEntry, State.setEntry, State.bump, State.withDone, Vector.set_set]

theorem mergedEntry_openedEntry (page o : Nat) (lo up : Bool) (d : HalfWord) (s : State) :
    mergedEntry (openedEntry page s) s.mgmt.params.commitDelay o lo up d =
      { openedEntry page s with staged := stageBytes [] o lo up d } := by
  by_cases hdelay : s.mgmt.params.commitDelay = 0 <;> simp [mergedEntry, openedEntry, hdelay]

/-- Settles O21: the entry is opened and merged into at once; two bytes never complete a mask. -/
theorem writesOpenTheLowestEmptyEntry : Obligations.WritesOpenTheLowestEmptyEntry := by
  intro s a lo up d i htakes hfor hempty hlow
  have hfound : s.emptyEntry = some i :=
    findEntry_eq_some_of_lowest (by simp [hempty]) fun j hj => by simpa using hlow j hj
  have habsorb : absorbWrite (newCycle .write a lo up (some d) s) (s.writing a lo up d) = _ :=
    absorbWrite_of_empty hfor hfound
  let u := s.writing a lo up d
  have he := mergedEntry_openedEntry (pageOf a) (offsetOf a) lo up d u
  rw [← entry_openEntry i (pageOf a) u] at he
  have hmerge := mergeWrite_eq (s := openEntry i (pageOf a) u) (c := newCycle .write a lo up (some d) s) he rfl
    (congrArg Entry.state (entry_openEntry i (pageOf a) u))
  rw [merged_openEntry, entry_openEntry] at hmerge
  simp only [length_stageBytes_nil, false_or] at hmerge
  refine (exec_hostWriteArrival_taken d htakes).trans (congrArg (fun t => Host.Outcome.next (settle t)) ?_)
  refine (handWrite_of_absorbed habsorb).trans ?_
  rw [← stageBytes_nil]
  exact hmerge

/-! ## Holding (R24, R30) -/

theorem insertOpened_head {s : State} {i j : Fin 8} (h : openedBefore (s.entry j) (s.entry i) = false)
    (l : List (Fin 8)) : insertOpened s j (i :: l) = i :: insertOpened s j l := by
  simp [insertOpened, h]

theorem insertOpened_first {s : State} {i : Fin 8} {l : List (Fin 8)}
    (h : ∀ j ∈ l, openedBefore (s.entry i) (s.entry j) = true) : insertOpened s i l = i :: l := by
  cases l with
  | nil => rfl
  | cons j l => simp [insertOpened, h j]

theorem openedBefore_self (e : Entry) : openedBefore e e = false := by
  simp [openedBefore]

/-- R24: of two entries at most one opened before the other. -/
theorem openedBefore_asymm {a b : Entry} (h : openedBefore a b = true) : openedBefore b a = false := by
  simp only [openedBefore, Bool.and_eq_true, decide_eq_true_eq] at h
  simp only [openedBefore, Bool.and_eq_false_iff, decide_eq_false_iff_not]
  bv_omega

/-- The entry that opened before every other GATHERING one, once inserted, stays first. -/
def OldestFirst (s : State) (i : Fin 8) (l : List (Fin 8)) : Prop :=
  (i ∈ l → ∃ t, l = i :: t) ∧ ∀ j ∈ l, j = i ∨ openedBefore (s.entry i) (s.entry j) = true

theorem OldestFirst.insert {s : State} {i j : Fin 8} {l : List (Fin 8)} (h : OldestFirst s i l)
    (hj : j = i ∨ openedBefore (s.entry i) (s.entry j) = true) : OldestFirst s i (insertOpened s j l) := by
  obtain ⟨hhead, hall⟩ := h
  have hmem : ∀ k, k ∈ insertOpened s j l ↔ k = j ∨ k ∈ l := fun k => by
    rw [(insertOpened_perm s j l).mem_iff, List.mem_cons]
  refine ⟨fun hin => ?_, fun k hk => ((hmem k).mp hk).elim (fun heq => heq ▸ hj) (hall k)⟩
  by_cases hl : i ∈ l
  · obtain ⟨t, rfl⟩ := hhead hl
    have hnot : openedBefore (s.entry j) (s.entry i) = false :=
      hj.elim (fun heq => heq ▸ openedBefore_self _) openedBefore_asymm
    exact ⟨_, insertOpened_head hnot t⟩
  · obtain rfl : i = j := ((hmem i).mp hin).resolve_right hl
    exact ⟨l, insertOpened_first fun k hk => (hall k hk).resolve_left fun heq => hl (heq ▸ hk)⟩

/-- R24: the first in the order of opening is the entry that opened before every other GATHERING entry. -/
theorem gatheringInOrder_head {s : State} {i : Fin 8} (hi : (s.entry i).state = .gathering)
    (hfirst : ∀ j, (s.entry j).state = .gathering → j ≠ i → openedBefore (s.entry i) (s.entry j) = true) :
    ∃ t, s.gatheringInOrder = i :: t := by
  have horder : OldestFirst s i s.gatheringInOrder := by
    refine List.foldlRecOn (motive := OldestFirst s i) _ _ ⟨nofun, nofun⟩ fun l hl j hj => hl.insert ?_
    have hstate : (s.entry j).state = .gathering := by simpa using (List.mem_filter.mp hj).2
    by_cases heq : j = i
    · exact .inl heq
    · exact .inr (hfirst j hstate heq)
  exact horder.1 (mem_gatheringInOrder.mpr hi)

theorem evictOldest_of_none {s : State} (h : ∀ j, (s.entry j).state ≠ .gathering) : evictOldest s = s := by
  have hnil : s.gatheringInOrder = [] :=
    List.eq_nil_iff_forall_not_mem.mpr fun j hj => h j (mem_gatheringInOrder.mp hj)
  simp only [evictOldest, hnil]

theorem evictOldest_of_first {s : State} {i : Fin 8} (hi : (s.entry i).state = .gathering)
    (hfirst : ∀ j, (s.entry j).state = .gathering → j ≠ i → openedBefore (s.entry i) (s.entry j) = true) :
    evictOldest s = s.withClosed i := by
  obtain ⟨t, ht⟩ := gatheringInOrder_head hi hfirst
  simp only [evictOldest, ht]
  exact closeEntry_of_gathering hi

theorem absorbWrite_of_full {s : State} {c : Cycle} (hnone : s.gatheringFor c.page = none)
    (hfull : s.emptyEntry = none) : absorbWrite c s = none := by
  simp only [absorbWrite, hnone, hfull]

theorem handWrite_of_not_absorbed {s : State} {c : Cycle} (h : absorbWrite c s = none) :
    handWrite c s = setWait .staging (evictOldest s) := by
  simp only [handWrite, h]

/-- Settles O22. -/
theorem writesAreHeldWhenTheBufferIsFull : Obligations.WritesAreHeldWhenTheBufferIsFull := by
  intro s a lo up d htakes hfor hfull
  have hempty : s.emptyEntry = none := findEntry_eq_none_iff.mpr fun i => by simpa using hfull i
  have habsorb : absorbWrite (newCycle .write a lo up (some d) s) (s.writing a lo up d) = none :=
    absorbWrite_of_full hfor hempty
  have hexec := exec_hostWriteArrival_taken d htakes
  rw [handWrite_of_not_absorbed habsorb] at hexec
  refine ⟨fun hnone => ?_, fun i hi hfirst => ?_⟩
  · rw [evictOldest_of_none (s := s.writing a lo up d) hnone] at hexec
    exact hexec
  · have hbefore : ∀ j, (s.entry j).state = .gathering → j ≠ i → openedBefore (s.entry i) (s.entry j) = true :=
      fun j hj hne => by simpa [openedBefore] using hfirst j hj hne
    rw [evictOldest_of_first (s := s.writing a lo up d) hi hbefore] at hexec
    exact hexec

/-! ## The timers of an entry (R32, R33) -/

theorem exec_idleTimerExpiry (i : Fin 8) (s : State) : exec (.idleTimerExpiry i) s =
    .next (if (s.entry i).idle.isSome then settle (closeEntry i s) else s) := rfl

theorem exec_ageTimerExpiry (i : Fin 8) (s : State) : exec (.ageTimerExpiry i) s =
    .next (if (s.entry i).age.isSome then settle (closeEntry i s) else s) := rfl

/-- Settles O25. -/
theorem timerExpiryClosesTheEntry : Obligations.TimerExpiryClosesTheEntry := by
  intro s i
  refine ⟨fun hstate hidle => ?_, fun hstate hage => ?_, fun hidle => ?_, fun hage => ?_⟩
  · rw [exec_idleTimerExpiry, if_pos (Option.isSome_iff_ne_none.mpr hidle), closeEntry_of_gathering hstate]
  · rw [exec_ageTimerExpiry, if_pos (Option.isSome_iff_ne_none.mpr hage), closeEntry_of_gathering hstate]
  · rw [exec_idleTimerExpiry, hidle]; rfl
  · rw [exec_ageTimerExpiry, hage]; rfl

end Sys2Proof.Machine
end

section
/-! PROOF. The ends of host cycles: the withdrawal of the strobes (R116, R125), the return of a host read's halfword
(R99, R100, R122), and the release of RESET, which begins the mount and takes the strobes that the pins hold (R127). -/

-- In order: as one text the package would start more threads than memory has stacks for.
set_option Elab.async false

namespace Sys2Proof.Machine

/-! ## The withdrawal of the strobes -/

/-- The port IDLE with no record and no strobe (R116, R125). -/
def State.withPortIdle (s : State) : State :=
  { s.withStrobes .none with port := { state := .idle, holdTimer := none, cycle := none } }

theorem exec_cycleEnd_of_done {s : State} (h : s.port.state = .done) : exec .cycleEnd s = .next s.withPortIdle := by
  show Host.Outcome.next (withdrawStrobes s) = _
  simp only [withdrawStrobes, h]
  rfl

theorem exec_cycleAbandoned_of_holding {s : State} {c : Cycle} (h : s.port.state = .holding)
    (hc : s.port.cycle = some c) : exec .cycleAbandoned s = .next (withdrawCycleRead c s).withPortIdle := by
  show Host.Outcome.next (withdrawStrobes s) = _
  simp only [withdrawStrobes, h, hc]
  rfl

theorem setBank_withPortIdle (s : State) (bk : BankId) (k : BankCtl) :
    (s.setBank bk k).withPortIdle = s.withPortIdle.setBank bk k := by
  cases bk <;> rfl

/-- Settles O23. -/
theorem strobesWithdrawnEndTheCycle : Obligations.StrobesWithdrawnEndTheCycle := by
  intro s
  refine ⟨exec_cycleEnd_of_done, ⟨rfl, rfl, rfl⟩, fun c fault data => ⟨rfl, rfl, rfl⟩, fun c hstate hc =>
    ⟨fun hnot => ?notHanded, fun x h hwait hhanded hslot hread => ?handed⟩⟩
  case notHanded =>
    exact (exec_cycleAbandoned_of_holding hstate hc).trans
      (congrArg (fun t : State => Host.Outcome.next t.withPortIdle) (withdrawCycleRead_of_not_handed s hnot))
  case handed =>
    rw [exec_cycleAbandoned_of_holding hstate hc, withdrawCycleRead_of_handed s hwait hhanded hslot,
      withdrawHostRead_of_hostRead hread, setBank_withPortIdle]
    rfl

/-! ## The return of a host read (R99, R122) -/

/-- The host read's slot emptied (R97). -/
def State.withoutHostRead (s : State) (bk : BankId) : State := s.setBank bk { s.bank bk with hostRead := none }

theorem waiting_of_holding {s : State} {c : Cycle} {w : Wait} (hstate : s.port.state = .holding)
    (hc : s.port.cycle = some c) (hwait : c.wait = w) : s.waiting w = some c := by
  simp [State.waiting, hstate, hc, hwait]

theorem waiting_congr {s t : State} (h : t.port = s.port) (w : Wait) : t.waiting w = s.waiting w := by
  simp only [State.waiting, h]

theorem hostReadDone_of_read {s : State} {bk : BankId} {h : HostRead} {c : Cycle} {x : SlotRef} (bytes : List Byte)
    (hread : (s.bank bk).hostRead = some h) (hkept : h.withdrawn = false) (hwaiting : s.waiting .bank = some c)
    (hhanded : c.handed = true) (hslot : c.slot = some x) (hx : x.bank = bk) :
    hostReadDone bk bytes s = completeRead c (halfAt bytes 0) (s.withoutHostRead bk) := by
  have hwaiting' : (s.setBank bk { s.bank bk with hostRead := none }).waiting .bank = some c :=
    (waiting_congr (setBank_oneBank ..).frame.port _).trans hwaiting
  simp [hostReadDone, hwaiting', hread, hkept, hhanded, hslot, hx, State.withoutHostRead]

theorem hostReadDone_of_none_waits {s : State} {bk : BankId} (bytes : List Byte) (hwaiting : s.waiting .bank = none) :
    hostReadDone bk bytes s = s.withoutHostRead bk := by
  have hwaiting' : (s.setBank bk { s.bank bk with hostRead := none }).waiting .bank = none :=
    (waiting_congr (setBank_oneBank ..).frame.port _).trans hwaiting
  simp [hostReadDone, hwaiting', State.withoutHostRead]

theorem exec_arrayReadDone_host {s : State} {bk : BankId} {slot : SlotRef} {o : Nat}
    (hactive : (s.bank bk).active = some { cls := .host, act := .read slot o 2 }) :
    exec (.arrayReadDone bk .array) s =
      .next (kickBanks (endAction bk (hostReadDone bk ((s.flash bk).bytes slot o 2) s))) := by
  have hempty : emptySlot bk .host s = s := setBank_bank_self s bk
  have hslot : (s.bank bk).slot .host = none := rfl
  simp only [exec, execArrayReadDone, hactive, finishRead, hslot, hempty]
  rfl

theorem kickBanks_hostRead (bk : BankId) (s : State) : ((kickBanks s).bank bk).hostRead = (s.bank bk).hostRead := by
  cases bk
  · rw [kickBanks, (kickBank_oneBank .b (kickBank .a s)).bank_ne (by decide), kickBank_hostRead]
  · rw [kickBanks, kickBank_hostRead, (kickBank_oneBank .a s).bank_ne (by decide)]

theorem endAction_frame (bk : BankId) (s : State) : BankFrame s (endAction bk s) := (setBank_oneBank ..).frame

theorem endAction_hostRead (bk : BankId) (s : State) :
    ((endAction bk s).bank bk).hostRead = (s.bank bk).hostRead := by
  simp [endAction]

theorem withoutHostRead_hostRead (s : State) (bk : BankId) : ((s.withoutHostRead bk).bank bk).hostRead = none := by
  simp [State.withoutHostRead]

/-- The read completed on the state without the request is the read completed on `s`, but for the banks. -/
theorem completeRead_withoutHostRead {s : State} {c : Cycle} (bk : BankId) (x : HalfWord)
    (hc : s.port.cycle = some c) : completeRead c x (s.withoutHostRead bk) =
      ((s.withDone c false (some (readData c x))).bump .hostReads).setBank bk { s.bank bk with hostRead := none } := by
  have hc' : (s.withoutHostRead bk).port.cycle = some c := by simpa [State.withoutHostRead] using hc
  rw [completeRead, completeCycle_of_cycle _ _ hc', State.withoutHostRead, setBank_withDone, setBank_bump]

theorem halfAt_bytes_two (f : Flash) (slot : SlotRef) (o : Nat) :
    halfAt (f.bytes slot o 2) 0 = halfOf (f.byte (slot.addr o)) (f.byte (slot.addr (o + 1))) := rfl

/-- Settles O19. -/
theorem hostReadDataReturns : Obligations.HostReadDataReturns := by
  intro s bk slot o h hactive hread
  refine ⟨fun c x hkept hstate hc hwait hhanded hslot hx => ?completes, fun _ hwaiting => ?discarded⟩
  case completes =>
    have hdone := hostReadDone_of_read ((s.flash bk).bytes slot o 2) hread hkept (waiting_of_holding hstate hc hwait)
      hhanded hslot hx
    rw [completeRead_withoutHostRead bk _ hc, halfAt_bytes_two] at hdone
    refine ⟨_, exec_arrayReadDone_host hactive, ?_, ?_⟩
    · refine BankFrame.trans (BankFrame.trans ?_ (endAction_frame bk _)) (kickBanks_frame _)
      rw [hdone, readData, halfOf_low, halfOf_high]
      exact (setBank_oneBank ..).frame
    · rw [kickBanks_hostRead, endAction_hostRead, hdone, setBank_bank]
  case discarded =>
    have hdone := hostReadDone_of_none_waits (bk := bk) ((s.flash bk).bytes slot o 2) hwaiting
    refine ⟨_, exec_arrayReadDone_host hactive, ?_, ?_⟩
    · refine BankFrame.trans (BankFrame.trans ?_ (endAction_frame bk _)) (kickBanks_frame _)
      rw [hdone]
      exact (setBank_oneBank ..).frame
    · rw [kickBanks_hostRead, endAction_hostRead, hdone, withoutHostRead_hostRead]

/-! ## The release of RESET (R127, R135) -/

/-- The state in which the strobes that the pins hold at the release arrive. -/
def State.released (s : State) : State :=
  beginMount { s with port := { state := .idle, holdTimer := none, cycle := none } }

theorem exec_resetReleased_of_inReset {s : State} (h : s.port.state = .inReset) :
    exec .resetReleased s = .next (arriveFromPins s.released) :=
  congrArg Host.Outcome.next (if_pos h)

theorem exec_resetReleased_of_not_inReset {s : State} (h : s.port.state ≠ .inReset) :
    exec .resetReleased s = .next s :=
  congrArg Host.Outcome.next (if_neg h)

theorem released_frame (s : State) :
    EngineFrame { s with port := { state := .idle, holdTimer := none, cycle := none } } s.released :=
  beginMount_frame _

theorem EngineFrame.newCycle {s t : State} (h : EngineFrame s t) (kind : CycleKind) (a : BitVec 22) (lo up : Bool)
    (d : Option HalfWord) : newCycle kind a lo up d t = Machine.newCycle kind a lo up d s := by
  rw [h]; rfl

theorem newCycle_released (s : State) (kind : CycleKind) (a : BitVec 22) (lo up : Bool) (d : Option HalfWord) :
    newCycle kind a lo up d s.released = newCycle kind a lo up d s := (released_frame s).newCycle kind a lo up d

/-- A cycle that arrives in MOUNTING is held for the mount (R119). -/
theorem arrive_of_mounting {s : State} {c : Cycle} (hkind : c.kind = .read ∨ c.kind = .write)
    (h : s.service.state = .mounting) : arrive c s = setWait .mount (s.withCycle c) := by
  rcases hkind with hkind | hkind <;>
  · simp only [arrive, hkind]
    exact treatCycle_of_mounting (s := s.withCycle c) c h

theorem arrive_of_both {s : State} {c : Cycle} (hkind : c.kind = .both) : arrive c s = s.withDone c true none := by
  simp only [arrive, hkind]
  rfl

/-- Settles O10. -/
theorem resetReleaseBeginsTheMount : Obligations.ResetReleaseBeginsTheMount := by
  intro s
  have hframe := released_frame s
  have hpins : s.released.pins = s.pins := hframe.pins
  have hservice : s.released.service = s.service := hframe.service
  refine ⟨fun hreset hnone => ?none, fun a lo up hreset hread hmounting => ?read,
    fun a lo up d hreset hwrite hmounting => ?write, fun a lo up hreset hboth => ?both,
    exec_resetReleased_of_not_inReset⟩
  case none =>
    have harrive : arriveFromPins s.released = s.released := by simp only [arriveFromPins, hpins, hnone]
    refine ⟨s.released, by rw [exec_resetReleased_of_inReset hreset, harrive], hframe,
      ⟨_, beginMount_engine _, rfl, mountStart_b_phase _, rfl⟩, ?_, ?_⟩
    · rw [State.released, beginMount_bankA]
      exact beginReset_inReset _ _
    · rw [State.released, beginMount_bankB]
      show if s.service.strap = .two then _ else _
      split
      · exact beginReset_inReset _ _
      · rfl
  case read =>
    have harrive : arriveFromPins s.released = arrive (newCycle .read a lo up none s) s.released := by
      simp only [arriveFromPins, hpins, hread, newCycle_released]
    rw [arrive_of_mounting (.inl rfl) (by rw [hservice]; exact hmounting)] at harrive
    exact ⟨_, _, by rw [exec_resetReleased_of_inReset hreset, harrive], rfl, rfl, rfl, rfl, rfl, rfl, rfl, rfl, rfl⟩
  case write =>
    have harrive : arriveFromPins s.released = arrive (newCycle .write a lo up (some d) s) s.released := by
      simp only [arriveFromPins, hpins, hwrite, newCycle_released]
    rw [arrive_of_mounting (.inr rfl) (by rw [hservice]; exact hmounting)] at harrive
    exact ⟨setWait .mount (s.released.withCycle (newCycle .write a lo up (some d) s)), _,
      by rw [exec_resetReleased_of_inReset hreset, harrive], rfl, rfl, rfl, rfl, rfl, rfl, rfl, rfl, rfl,
      hframe.staging⟩
  case both =>
    have harrive : arriveFromPins s.released = arrive (newCycle .both a lo up none s) s.released := by
      simp only [arriveFromPins, hpins, hboth, newCycle_released]
    rw [arrive_of_both rfl] at harrive
    exact ⟨s.released.withDone (newCycle .both a lo up none s) true none,
      by rw [exec_resetReleased_of_inReset hreset, harrive], rfl, hframe.mgmt⟩

end Sys2Proof.Machine
end

section
/-! PROOF. The read-only latch's causes (R133): the first one closes the GATHERING entries and refuses a held write. -/

-- In order: as one text the package would start more threads than memory has stacks for.
set_option Elab.async false

namespace Sys2Proof.Machine

/-! ## A held write refused (R31) -/

/-- A HOLDING cycle with a wait is the current cycle. -/
theorem cycle_of_waiting {s : State} {c : Cycle} {w : Wait} (h : s.waiting w = some c) : s.port.cycle = some c := by
  unfold State.waiting at h
  split at h
  case h_1 c' _ hc =>
    split at h
    · rw [hc, ← Option.some.inj h]
    · cases h
  case h_2 => cases h

theorem refuseHeld_of_held {s : State} {c : Cycle} (h : s.waiting .staging = some c) :
    refuseHeld s = (s.withDone c true none).setFlag .writeRefused := by
  simp only [refuseHeld, h, refuseWrite, completeCycle_of_cycle _ _ (cycle_of_waiting h)]

theorem refuseHeld_of_none {s : State} (h : s.waiting .staging = none) : refuseHeld s = s := by
  simp only [refuseHeld, h]

/-- A refusal touches the port and the flags alone. -/
theorem refuseHeld_eq (s : State) :
    refuseHeld s = { s with port := (refuseHeld s).port, mgmt := (refuseHeld s).mgmt } := by
  cases h : s.waiting .staging with
  | none => rw [refuseHeld_of_none h]
  | some c => rw [refuseHeld_of_held h]; rfl

theorem refuseHeld_service (s : State) : (refuseHeld s).service = s.service := by rw [refuseHeld_eq]

theorem refuseHeld_entry (s : State) (i : Fin 8) : (refuseHeld s).entry i = s.entry i := by
  rw [State.entry, State.entry, refuseHeld_staging]

/-! ## Closing does not look past the staging buffer -/

theorem closeEntry_staging_congr {s t : State} (h : t.staging = s.staging) (i : Fin 8) :
    (closeEntry i t).staging = (closeEntry i s).staging := by
  have hentry : t.entry i = s.entry i := congrArg (fun x : Staging => x.entries[i]) h
  simp only [closeEntry, hentry, h]
  split
  · simp only [setQueue_staging, setEntry_staging, h]
  · exact h

theorem closeAll_staging_congr {s t : State} (h : t.staging = s.staging) :
    (closeAll t).staging = (closeAll s).staging := by
  have hentry : ∀ i, t.entry i = s.entry i := fun i => congrArg (fun x : Staging => x.entries[i]) h
  have horder : t.gatheringInOrder = s.gatheringInOrder :=
    gatheringInOrder_congr (fun i => by rw [hentry]) fun i => by rw [hentry]
  rw [closeAll, closeAll, horder]
  generalize s.gatheringInOrder = l
  clear hentry horder
  induction l generalizing s t with
  | nil => exact h
  | cons i l ih => exact ih (closeEntry_staging_congr h i)

theorem closeAll_eq (s : State) : closeAll s = { s with staging := (closeAll s).staging } := closeAll_frame s

/-! ## A cause handed to the latch -/

/-- The state with a latch in place of its own. -/
def State.withLatch (s : State) (l : Latch) : State := { s with service := { s.service with latch := l } }

theorem addCause_of_set {s : State} (c : Cause) (h : s.service.latch.isSet = true) :
    addCause c s = s.withLatch (s.service.latch.add c) := by
  simp only [addCause, h, if_true]
  rfl

/-- What the first cause does beside becoming present: READ ONLY, and in ACTIVE the closes and the refusal (R133). -/
def State.readOnlyEffect (s : State) : State :=
  if s.service.state = .active then refuseHeld (closeAll (s.setFlag .readOnly)) else s.setFlag .readOnly

theorem refuseHeld_withLatch (s : State) (l : Latch) : refuseHeld (s.withLatch l) = (refuseHeld s).withLatch l := by
  cases h : s.waiting .staging with
  | none => rw [refuseHeld_of_none h, refuseHeld_of_none (s := s.withLatch l) h]
  | some c => rw [refuseHeld_of_held h, refuseHeld_of_held (s := s.withLatch l) h]; rfl

theorem closeAll_withLatch (s : State) (l : Latch) : closeAll (s.withLatch l) = (closeAll s).withLatch l := by
  have hstaging := closeAll_staging_congr (s := s) (t := s.withLatch l) rfl
  rw [closeAll_eq (s.withLatch l), hstaging, closeAll_eq s]
  rfl

/-- R133: the effect of the first cause is the same whichever cause it is. -/
theorem addCause_of_clear {s : State} (c : Cause) (h : s.service.latch.isSet = false) :
    addCause c s = s.readOnlyEffect.withLatch (s.service.latch.add c) := by
  have hstart : ∀ l, (s.withLatch l).setFlag .readOnly = (s.setFlag .readOnly).withLatch l := fun _ => rfl
  simp only [addCause, h, Bool.false_eq_true, if_false, State.readOnlyEffect]
  rw [show ({ s with service := { s.service with latch := s.service.latch.add c } } : State) =
    s.withLatch (s.service.latch.add c) from rfl, hstart]
  by_cases hactive : s.service.state = .active
  · rw [if_pos hactive, if_pos (by exact hactive), closeAll_withLatch, refuseHeld_withLatch]
  · rw [if_neg hactive, if_neg (by exact hactive)]

theorem Latch.add_comm (l : Latch) (c d : Cause) : (l.add c).add d = (l.add d).add c := by
  cases c <;> cases d <;> rfl

theorem Latch.isSet_add (l : Latch) (c : Cause) : (l.add c).isSet = true := by
  cases c <;> simp [Latch.add, Latch.isSet]

theorem Latch.add_of_has {l : Latch} {c : Cause} (h : l.has c = true) : l.add c = l := by
  obtain ⟨capacity, stuck, halted⟩ := l
  cases c <;> simp_all [Latch.has, Latch.add]

theorem Latch.isSet_of_has {l : Latch} {c : Cause} (h : l.has c = true) : l.isSet = true := by
  cases c <;> simp_all [Latch.has, Latch.isSet]

theorem readOnlyEffect_service (s : State) : s.readOnlyEffect.service = s.service := by
  unfold State.readOnlyEffect
  split
  · rw [refuseHeld_service, (closeAll_frame _).service]; rfl
  · rfl

theorem addCause_service (c : Cause) (s : State) :
    (addCause c s).service = { s.service with latch := s.service.latch.add c } := by
  cases h : s.service.latch.isSet with
  | true => rw [addCause_of_set c h]; rfl
  | false => rw [addCause_of_clear c h, State.withLatch, readOnlyEffect_service]

theorem addCause_of_has {s : State} {c : Cause} (h : s.service.latch.has c = true) : addCause c s = s := by
  rw [addCause_of_set c (Latch.isSet_of_has h), Latch.add_of_has h]; rfl

/-- Two causes handed together: the second one finds the latch set. -/
theorem addCause_comm (c d : Cause) (s : State) : addCause c (addCause d s) = addCause d (addCause c s) := by
  cases h : s.service.latch.isSet with
  | true =>
    have hset : ∀ e : Cause, (s.withLatch (s.service.latch.add e)).service.latch.isSet = true := fun e =>
      Latch.isSet_add _ e
    rw [addCause_of_set d h, addCause_of_set c h, addCause_of_set c (hset d), addCause_of_set d (hset c)]
    simp only [State.withLatch, Latch.add_comm s.service.latch d c]
  | false =>
    have hset : ∀ e : Cause, (s.readOnlyEffect.withLatch (s.service.latch.add e)).service.latch.isSet = true :=
      fun e => Latch.isSet_add _ e
    rw [addCause_of_clear d h, addCause_of_clear c h, addCause_of_set c (hset d), addCause_of_set d (hset c)]
    simp only [State.withLatch, Latch.add_comm s.service.latch d c]

theorem readOnlyEffect_of_active {s : State} (h : s.service.state = .active) :
    s.readOnlyEffect = refuseHeld (closeAll (s.setFlag .readOnly)) := if_pos h

theorem readOnlyEffect_hasFlag (s : State) : s.readOnlyEffect.hasFlag .readOnly = true := by
  unfold State.readOnlyEffect
  split <;> simp

theorem readOnlyEffect_entry {s : State} (h : s.service.state = .active) (i : Fin 8) :
    s.readOnlyEffect.entry i = (s.entry i).afterClose := by
  rw [readOnlyEffect_of_active h, refuseHeld_entry, closeAll_entry]
  rfl

theorem readOnlyEffect_queue {s : State} (h : s.service.state = .active) :
    s.readOnlyEffect.staging.queue = s.staging.queue ++ s.gatheringInOrder := by
  rw [readOnlyEffect_of_active h, refuseHeld_staging, closeAll_queue,
    gatheringInOrder_congr (s := s) (t := s.setFlag .readOnly) (fun _ => rfl) fun _ => rfl]
  rfl

theorem readOnlyEffect_of_held {s : State} {x : Cycle} (h : s.service.state = .active)
    (hheld : s.waiting .staging = some x) : s.readOnlyEffect.port = (s.withDone x true none).port ∧
      s.readOnlyEffect.hasFlag .writeRefused = true := by
  have hwaiting : (closeAll (s.setFlag .readOnly)).waiting .staging = some x :=
    ((closeAll_frame _).waiting _).trans hheld
  rw [readOnlyEffect_of_active h, refuseHeld_of_held hwaiting]
  exact ⟨rfl, by simp⟩

/-- Settles O60. -/
theorem latchTakesItsFirstCause : Obligations.LatchTakesItsFirstCause := by
  intro s c d
  refine ⟨addCause_service c s, addCause_of_set c, addCause_of_has, fun hclear => ?first, addCause_comm c d s⟩
  case first =>
    rw [addCause_of_clear c hclear]
    refine ⟨readOnlyEffect_hasFlag s, fun hactive => ⟨fun i => ?entry, readOnlyEffect_queue hactive, fun x hx =>
      readOnlyEffect_of_held hactive hx⟩, fun hother => ?other⟩
    case entry => exact congrArg Entry.state (readOnlyEffect_entry hactive i)
    case other =>
      rw [State.readOnlyEffect, if_neg hother]
      exact ⟨rfl, rfl⟩

end Sys2Proof.Machine
end

section
/-! PROOF. Management commands that change the part (R164, R168): FLUSH, RESUME COMMIT, FORMAT, RESTART, WRITE PARAM and
the clearing commands. Each is its own taking with the response captured. -/

-- In order: as one text the package would start more threads than memory has stacks for.
set_option Elab.async false

namespace Sys2Proof.Machine

/-! ## The taking of a frame -/

/-- R163, R164: a frame that the receiver's bits begin is taken, and its response captured. -/
theorem takeFrame_of_allows {s : State} {code : Byte} {args : List Byte} (body : State → Taken)
    (h : s.frameAllows code args) : takeFrame code args body s = (body s).2.answered code args (body s).1 := by
  obtain ⟨hreceiving, hprefix⟩ := h
  simp only [takeFrame, hreceiving, hprefix, Bool.and_self, if_true]
  rfl

/-- The outcome of a command whose taking is known. -/
theorem next_takeFrame {s t : State} {code : Byte} {args response : List Byte} {body : State → Taken}
    (h : s.frameAllows code args) (hbody : body s = (response, t)) :
    (Host.Outcome.next (takeFrame code args body s) : Host.Outcome State Fault Refusal) =
      .next (t.answered code args response) := by
  rw [takeFrame_of_allows body h, hbody]

/-! ## FLUSH (R44) -/

theorem takeFlush_of_active {s : State} (h : s.service.state = .active) :
    takeFlush s = ([0x00#8], settle (flushStaging s)) := if_pos h

theorem takeFlush_of_not_active {s : State} (h : s.service.state ≠ .active) : takeFlush s = ([0x01#8], s) := if_neg h

/-- An entry after a FLUSH: marked if it is not EMPTY, and closed. -/
theorem afterClose_marked (s : State) (i : Fin 8) : (s.marked.entry i).afterClose = { s.entry i with
    cohort := (s.entry i).cohort || (s.entry i).state != .empty
    state := if (s.entry i).state = .gathering then .closed else (s.entry i).state
    idle := if (s.entry i).state = .gathering then none else (s.entry i).idle
    age := if (s.entry i).state = .gathering then none else (s.entry i).age } := by
  rw [entry_marked]
  by_cases hempty : (s.entry i).state = .empty <;> simp [Entry.afterClose, hempty]

theorem gatheringInOrder_marked (s : State) : s.marked.gatheringInOrder = s.gatheringInOrder :=
  gatheringInOrder_congr (fun i => by rw [entry_marked]; split <;> rfl) fun i => by rw [entry_marked]; split <;> rfl

theorem flushPending_eq_false_iff (s : State) : s.flushPending = false ↔ ∀ i, (s.entry i).cohort = false := by
  rw [State.flushPending, Option.isSome_eq_false_iff, Option.isNone_iff_eq_none, findEntry_eq_none_iff]

theorem flushStaging_staging (s : State) : (flushStaging s).staging = (closeAll s.marked).staging := by
  rw [flushStaging_eq]; split <;> rfl

theorem flushStaging_entry (s : State) (i : Fin 8) : (flushStaging s).entry i = (s.marked.entry i).afterClose := by
  rw [State.entry, flushStaging_staging]
  exact closeAll_entry s.marked i

theorem closeAll_marked_mgmt (s : State) : (closeAll s.marked).mgmt = s.mgmt := (closeAll_frame _).mgmt

/-- R44: FLUSH DONE is set at once when no entry is marked. -/
theorem flushStaging_flags (s : State) : (flushStaging s).mgmt.flags =
    if ∀ i, ((flushStaging s).entry i).cohort = false then s.mgmt.flags ||| 0x0020#16 else s.mgmt.flags := by
  have hpending : (closeAll s.marked).flushPending = false ↔ ∀ i, ((flushStaging s).entry i).cohort = false := by
    rw [flushPending_eq_false_iff]
    simp only [flushStaging_entry, closeAll_entry]
  by_cases h : (closeAll s.marked).flushPending = false
  · rw [if_pos (hpending.mp h), flushStaging_eq, h]
    exact congrArg (fun m : Mgmt => m.flags ||| Flag.mask .flushDone) (closeAll_marked_mgmt s)
  · rw [if_neg (mt hpending.mpr h), flushStaging_eq, if_pos (by simpa using h), closeAll_marked_mgmt]

theorem flushStaging_frame (s : State) : flushStaging s = { s with
    staging := (flushStaging s).staging
    mgmt := { s.mgmt with flags := (flushStaging s).mgmt.flags } } := by
  have hclose : closeAll s.marked = { s with staging := (closeAll s.marked).staging } := closeAll_frame s.marked
  rw [flushStaging_eq]
  split
  · rw [closeAll_marked_mgmt]; exact hclose
  · rw [hclose]; rfl

/-- Settles O51. -/
theorem flushMarksAndCloses : Obligations.FlushMarksAndCloses := by
  intro s hframe
  refine ⟨fun hactive => ⟨flushStaging s, next_takeFrame hframe (takeFlush_of_active hactive), fun i => ?entry, ?queue,
    flushStaging_flags s, flushStaging_frame s⟩, fun hother => next_takeFrame hframe (takeFlush_of_not_active hother)⟩
  case entry => rw [flushStaging_entry, afterClose_marked]
  case queue => rw [flushStaging_staging, closeAll_queue, gatheringInOrder_marked]; rfl

/-! ## RESUME COMMIT (R41, R69) -/

/-- The only entry with a property is the one found. -/
theorem findEntry_eq_some_of_unique {s : State} {p : Entry → Bool} {i : Fin 8} (hi : p (s.entry i) = true)
    (huniq : ∀ j, p (s.entry j) = true → j = i) : s.findEntry p = some i :=
  findEntry_eq_some_of_lowest hi fun j hj => by
    rw [← Bool.not_eq_true]
    exact fun hp => (ne_of_lt hj) (huniq j hp)

theorem resumeEntry_of_stuck {s : State} {i : Fin 8} (hi : (s.entry i).state = .stuck)
    (huniq : ∀ j, (s.entry j).state = .stuck → j = i) : resumeEntry s =
      (s.setEntry i { s.entry i with state := .closed, attempts := 0 }).setQueue (i :: s.staging.queue) := by
  have hfound : (s.findEntry fun e => e.state == .stuck) = some i :=
    findEntry_eq_some_of_unique (by simp [hi]) fun j hj => huniq j (by simpa using hj)
  simp only [resumeEntry, hfound]

/-- Settles O52. -/
theorem resumeCommitRequeuesTheStuckEntry : Obligations.ResumeCommitRequeuesTheStuckEntry := by
  intro s hframe
  refine ⟨fun i hactive hpresent hi huniq => ?resumes, fun hno => next_takeFrame hframe (if_neg ?busy)⟩
  case resumes =>
    refine next_takeFrame hframe ((if_pos ⟨hactive, hpresent⟩).trans ?_)
    simp only [resumeCommit, resumeEntry_of_stuck hi huniq]
    rfl
  case busy =>
    rintro ⟨hactive, hpresent⟩
    simp [hactive, hpresent] at hno

/-! ## FORMAT (R144) -/

theorem countEntries_eq_zero_iff (s : State) (p : Entry → Bool) :
    s.countEntries p = 0 ↔ ∀ i, p (s.entry i) = false := by
  simp only [State.countEntries, List.length_eq_zero_iff, List.filter_eq_nil_iff, Bool.not_eq_true]
  exact ⟨fun h i => h i (mem_entryNumbers i), fun h i _ => h i⟩

theorem moverIdle_iff (s : State) : s.moverIdle = true ↔ s.mover.activity = .idle := by
  unfold State.moverIdle
  split <;> simp_all

theorem formatAdmitted_iff (s : State) : s.formatAdmitted = true ↔ s.service.state = .unformatted ∨
    (s.service.state = .active ∧ (∀ i, (s.entry i).state = .empty) ∧ s.mover.activity = .idle) := by
  simp [State.formatAdmitted, moverIdle_iff, countEntries_eq_zero_iff, and_assoc]

/-- R1: the pages that a strap admits. -/
theorem strapAdmits_iff (strap : Strap) (pages : Nat) : strapAdmits strap pages = true ↔
    256 ≤ pages ∧ pages ≤ if strap = .two then 15621 else 7493 := by
  rw [strapAdmits, Bool.and_eq_true, decide_eq_true_eq, decide_eq_true_eq]
  cases strap <;> exact Iff.rfl

theorem takeFormatCommand_of_busy {s : State} (pages : BitVec 16) (h : s.formatAdmitted = false) :
    takeFormatCommand pages s = ([0x01#8], s) := by
  simp only [takeFormatCommand, h]
  rfl

theorem takeFormatCommand_of_badArg {s : State} {pages : BitVec 16} (h : s.formatAdmitted = true)
    (hpages : strapAdmits s.service.strap pages.toNat = false) : takeFormatCommand pages s = ([0x02#8], s) := by
  simp only [takeFormatCommand, h, hpages]
  rfl

theorem takeFormatCommand_of_admitted {s : State} {pages : BitVec 16} (h : s.formatAdmitted = true)
    (hpages : strapAdmits s.service.strap pages.toNat = true) :
    takeFormatCommand pages s = ([0x00#8], takeFormat pages.toNat s) := by
  simp only [takeFormatCommand, h, hpages]
  rfl

/-- Settles O53. -/
theorem formatBegins : Obligations.FormatBegins := by
  intro s pages hframe
  refine ⟨fun hno => ?busy, fun hyes hpages => ?badArg, fun hyes hlow hhigh => ?begins⟩
  case busy =>
    exact next_takeFrame hframe (takeFormatCommand_of_busy pages (by
      rw [← Bool.not_eq_true, formatAdmitted_iff]; exact hno))
  case badArg =>
    refine next_takeFrame hframe (takeFormatCommand_of_badArg ((formatAdmitted_iff s).mpr hyes) ?_)
    rw [← Bool.not_eq_true, strapAdmits_iff]
    omega
  case begins =>
    refine ⟨_, next_takeFrame hframe (takeFormatCommand_of_admitted ((formatAdmitted_iff s).mpr hyes)
      ((strapAdmits_iff _ _).mpr ⟨hlow, hhigh⟩)), rfl, rfl, rfl, rfl, rfl, ?_⟩
    cases s.service.strap <;> rfl

/-! ## RESTART (R160) -/

theorem takeRestart_of_active {s : State} (h : s.service.state = .active) :
    takeRestart s = ([0x00#8], settle (startDrain (setRestart s))) := by
  simp only [takeRestart, h]; rfl

theorem takeRestart_of_unformatted {s : State} (h : s.service.state = .unformatted) :
    takeRestart s = ([0x00#8], internalReset s) := by
  simp only [takeRestart, h]; rfl

theorem takeRestart_of_draining {s : State} (h : s.service.state = .draining) :
    takeRestart s = ([0x00#8], testDrain (setRestart s)) := by
  simp only [takeRestart, h]; rfl

theorem takeRestart_of_drained {s : State} (h : s.service.state = .drained) :
    takeRestart s = ([0x00#8], setRestart s) := by
  simp only [takeRestart, h]; rfl

theorem takeRestart_of_busy {s : State} (h : s.service.state = .mounting ∨ s.service.state = .formatting) :
    takeRestart s = ([0x01#8], s) := by
  rcases h with h | h <;> (simp only [takeRestart, h]; rfl)

/-- The part in DRAINING before the entries close (R154). -/
def State.draining (s : State) : State := setReturn (some .active) (s.setService .draining)

/-- R154: a drain closes the entries and refuses a held write; the rest is as `draining` sets it. -/
theorem startDrain_eq (s : State) : startDrain s = { s.draining with
    staging := (startDrain s).staging
    port := (startDrain s).port
    mgmt := (startDrain s).mgmt
    mover := { s.mover with reserveHold := false } } := by
  rw [startDrain, refuseHeld_eq, closeAll_eq]
  rfl

theorem startDrain_staging (s : State) : (startDrain s).staging = (closeAll s).staging := by
  rw [startDrain, setReserveHold_staging, refuseHeld_staging]
  exact closeAll_staging_congr rfl

theorem startDrain_entry (s : State) (i : Fin 8) : (startDrain s).entry i = (s.entry i).afterClose := by
  rw [State.entry, startDrain_staging]
  exact closeAll_entry s i

theorem closeAll_draining_frame (s : State) : StagingFrame s.draining (closeAll s.draining) := closeAll_frame _

theorem startDrain_of_none {s : State} (h : s.waiting .staging = none) :
    (startDrain s).port = s.port ∧ (startDrain s).mgmt = s.mgmt := by
  have hnone : (closeAll s.draining).waiting .staging = none := ((closeAll_draining_frame s).waiting _).trans h
  have hstart : startDrain s = (closeAll s.draining).setReserveHold false :=
    congrArg (State.setReserveHold · false) (refuseHeld_of_none hnone)
  rw [hstart]
  exact ⟨(closeAll_draining_frame s).port, (closeAll_draining_frame s).mgmt⟩

theorem startDrain_of_held {s : State} {x : Cycle} (h : s.waiting .staging = some x) :
    (startDrain s).port = (s.withDone x true none).port ∧ (startDrain s).mgmt = (s.setFlag .writeRefused).mgmt := by
  have hheld : (closeAll s.draining).waiting .staging = some x := ((closeAll_draining_frame s).waiting _).trans h
  have hstart : startDrain s =
      (((closeAll s.draining).withDone x true none).setFlag .writeRefused).setReserveHold false :=
    congrArg (State.setReserveHold · false) (refuseHeld_of_held hheld)
  have hmgmt := (closeAll_draining_frame s).mgmt
  rw [hstart]
  exact ⟨rfl, congrArg (fun m : Mgmt => { m with flags := m.flags ||| Flag.mask .writeRefused }) hmgmt⟩

/-- Settles O54. -/
theorem restartFollowsTheServiceState : Obligations.RestartFollowsTheServiceState := by
  intro s hframe
  refine ⟨fun hactive => ?active, fun h => next_takeFrame hframe (takeRestart_of_unformatted h),
    fun h => next_takeFrame hframe (takeRestart_of_drained h), fun h => next_takeFrame hframe (takeRestart_of_draining h),
    fun h => next_takeFrame hframe (takeRestart_of_busy h)⟩
  case active =>
    have hstart := startDrain_eq (setRestart s)
    have hstaging := startDrain_staging (setRestart s)
    have hclose : (closeAll (setRestart s)).staging = (closeAll s).staging := closeAll_staging_congr rfl
    refine ⟨startDrain (setRestart s), next_takeFrame hframe (takeRestart_of_active hactive), ?_, ?_, ?_, ?_, ?_,
      startDrain_entry (setRestart s), startDrain_of_none (s := setRestart s),
      fun x hx => startDrain_of_held (s := setRestart s) hx, ?_, ?_, ?_, ?_, ?_⟩
    · rw [hstart]; rfl
    · rw [hstart]; rfl
    · rw [hstart]; rfl
    · rw [hstaging, hclose, closeAll_queue]
    · rw [hstaging, hclose, closeAll_nextOpen]
    all_goals rw [hstart]; rfl

/-! ## WRITE PARAM (R174) -/

/-- The parameters' ranges (R173), as the statement lists them. -/
theorem mem_ranges_iff (id lo hi : Nat) : (id, lo, hi) ∈ [(1, 0, 65535), (2, 1, 1000), (3, 1, 65535), (4, 0, 1),
    (5, 3, 8), (6, 16, 65535), (7, 100, 65535), (8, 0, 255), (9, 10, 2000), (10, 100, 10000)] ↔
      paramRange id = some (lo, hi) := by
  constructor
  · intro h
    simp only [List.mem_cons, Prod.mk.injEq, List.not_mem_nil, or_false] at h
    rcases h with ⟨rfl, rfl, rfl⟩ | ⟨rfl, rfl, rfl⟩ | ⟨rfl, rfl, rfl⟩ | ⟨rfl, rfl, rfl⟩ | ⟨rfl, rfl, rfl⟩ |
      ⟨rfl, rfl, rfl⟩ | ⟨rfl, rfl, rfl⟩ | ⟨rfl, rfl, rfl⟩ | ⟨rfl, rfl, rfl⟩ | ⟨rfl, rfl, rfl⟩ <;> rfl
  · intro h
    have hid : 1 ≤ id ∧ id ≤ 10 := (paramRange_isSome_iff id).mp (by simp [h])
    obtain ⟨h1, h10⟩ := hid
    interval_cases id <;> cases h <;> simp

theorem takeWriteParam_of_not_admitted {s : State} {id : Byte} {v : BitVec 16}
    (h : paramAdmits id.toNat v.toNat = false) : takeWriteParam id v s = ([0x02#8], s) := by
  simp only [takeWriteParam, h]
  rfl

theorem takeWriteParam_of_admitted {s : State} {id : Byte} {v : BitVec 16}
    (h : paramAdmits id.toNat v.toNat = true) : takeWriteParam id v s =
      ([0x00#8], if id = 5#8 ∨ id = 6#8 then settle (evaluateTriggers (setParam id.toNat v.toNat s))
        else setParam id.toNat v.toNat s) := by
  simp only [takeWriteParam, h]
  rfl

theorem eq_trigger_iff (id : Byte) : id = 5#8 ∨ id = 6#8 ↔ id.toNat = 5 ∨ id.toNat = 6 := by
  constructor
  · rintro (rfl | rfl) <;> simp
  · rintro (h | h)
    · exact .inl (BitVec.eq_of_toNat_eq h)
    · exact .inr (BitVec.eq_of_toNat_eq h)

theorem settle_evaluateTriggers_params (s : State) :
    (settle (evaluateTriggers s)).mgmt.params = s.mgmt.params := by
  have hbase : (settle (evaluateTriggers s)).base = s.base := by simp
  exact congrArg Base.params hbase

/-- Settles O50. -/
theorem writeParamSetsOneParameter : Obligations.WriteParamSetsOneParameter := by
  intro s id v hframe
  refine ⟨fun lo hi hmem hlo hhi => ?admitted, fun hno => ?refused⟩
  case admitted =>
    rw [mem_ranges_iff] at hmem
    have hadmits : paramAdmits id.toNat v.toNat = true := (paramAdmits_iff hmem).mpr ⟨hlo, hhi⟩
    have hid : 1 ≤ id.toNat ∧ id.toNat ≤ 10 := paramAdmits_range hadmits
    have hexec := next_takeFrame hframe (takeWriteParam_of_admitted hadmits)
    refine ⟨_, hexec, rfl, ?_⟩
    by_cases htrigger : id = 5#8 ∨ id = 6#8
    · have hparams : (settle (evaluateTriggers (setParam id.toNat v.toNat s))).mgmt.params =
          s.mgmt.params.put id.toNat v.toNat := settle_evaluateTriggers_params _
      simp only [if_pos htrigger]
      refine ⟨?_, fun other hne => ?_, fun h5 h6 => ?_, fun _ => ?_⟩
      · exact (congrArg (Params.get · id.toNat) hparams).trans (Params.get_put_same _ _ hid)
      · exact (congrArg (Params.get · other) hparams).trans (Params.get_put_ne _ _ hne)
      · exact ((eq_trigger_iff id).mp htrigger).elim (absurd · h5) (absurd · h6)
      · show _ = (settle (evaluateTriggers { s with mgmt := { s.mgmt with
          params := (settle (evaluateTriggers (setParam id.toNat v.toNat s))).mgmt.params } })).answered _ _ _
        rw [hparams]
        rfl
    · simp only [if_neg htrigger]
      exact ⟨Params.get_put_same _ _ hid, fun other hne => Params.get_put_ne _ _ hne, fun _ _ => rfl,
        fun h => absurd ((eq_trigger_iff id).mpr h) htrigger⟩
  case refused =>
    refine next_takeFrame hframe (takeWriteParam_of_not_admitted ?_)
    cases hrange : paramRange id.toNat with
    | none => simp [paramAdmits, hrange]
    | some range =>
      rw [← Bool.not_eq_true, paramAdmits_iff hrange]
      exact hno _ _ ((mem_ranges_iff _ _ _).mpr hrange)

/-! ## The clearing commands and ALERT (R177, R178, R180) -/

theorem exists_flag_of_lt {i : Nat} (h : i < 14) : ∃ f : Flag, f.bit = i := by
  interval_cases i
  exacts [⟨.mountDone, rfl⟩, ⟨.unformatted, rfl⟩, ⟨.mountRepaired, rfl⟩, ⟨.formatDone, rfl⟩, ⟨.formatFailed, rfl⟩,
    ⟨.flushDone, rfl⟩, ⟨.commitFailed, rfl⟩, ⟨.blockRetired, rfl⟩, ⟨.readOnly, rfl⟩, ⟨.holdTimeout, rfl⟩,
    ⟨.rangeFault, rfl⟩, ⟨.drainDone, rfl⟩, ⟨.frameError, rfl⟩, ⟨.writeRefused, rfl⟩]

theorem Flag.bit_lt (f : Flag) : f.bit < 14 := by cases f <;> decide

theorem getLsbD_flagBits {i : Nat} (h : i < 16) : flagBits.getLsbD i = decide (i < 14) := by
  interval_cases i <;> rfl

/-- R178: bits 14 and 15 correspond to no flag and never make ALERT. -/
theorem alert_iff (s : State) :
    s.alert = true ↔ ∃ f : Flag, s.hasFlag f = true ∧ s.mgmt.alertMask.getLsbD f.bit = true := by
  have hbit : ∀ i, i < 16 → (s.mgmt.flags &&& s.mgmt.alertMask &&& flagBits).getLsbD i =
      (s.mgmt.flags.getLsbD i && s.mgmt.alertMask.getLsbD i && decide (i < 14)) := fun i hi => by
    rw [BitVec.getLsbD_and, BitVec.getLsbD_and, getLsbD_flagBits hi]
  rw [State.alert, bne_iff_ne]
  constructor
  · intro hne
    by_contra hnone
    refine hne (BitVec.eq_of_getLsbD_eq fun i hi => ?_)
    rw [hbit i hi, BitVec.getLsbD_zero]
    by_cases hflag : i < 14
    · obtain ⟨f, rfl⟩ := exists_flag_of_lt hflag
      have hboth : (s.mgmt.flags.getLsbD f.bit && s.mgmt.alertMask.getLsbD f.bit) = false := by
        rw [← Bool.not_eq_true, Bool.and_eq_true]
        exact fun h => hnone ⟨f, h⟩
      rw [hboth, Bool.false_and]
    · simp [hflag]
  · rintro ⟨f, hset, hmask⟩ hzero
    have hf : (s.mgmt.flags &&& s.mgmt.alertMask &&& flagBits).getLsbD f.bit = true := by
      rw [hbit _ (by have := f.bit_lt; omega), show s.mgmt.flags.getLsbD f.bit = true from hset, hmask]
      simp [f.bit_lt]
    rw [hzero, BitVec.getLsbD_zero] at hf
    cases hf

/-- Settles O49. -/
theorem clearingCommandsAct : Obligations.ClearingCommandsAct := by
  intro s mask
  refine ⟨fun hframe => ⟨_, next_takeFrame hframe rfl, rfl, fun f => ?flags⟩, fun hframe => next_takeFrame hframe rfl,
    fun hframe => ⟨_, next_takeFrame hframe rfl, rfl, counter_of_reset rfl⟩, alert_iff s⟩
  case flags =>
    have hlt : f.bit < 16 := by have := f.bit_lt; omega
    show (s.mgmt.flags &&& ~~~mask).getLsbD f.bit = _
    simp [State.hasFlag, hlt]

end Sys2Proof.Machine
end

section
/-! PROOF. Management commands that only answer (R163, R166, R169 to R171, R174, R177, R180, R182): the receiver under
SCK, the readings, STATUS and the queries. -/

-- In order: as one text the package would start more threads than memory has stacks for.
set_option Elab.async false

namespace Sys2Proof.Machine

/-! ## SCK in the receiver's states (R163) -/

theorem clockBit_of_idle {s : State} (bit : Bool) (h : s.mgmt.receiver.state = .idle) : clockBit bit s = s := by
  simp only [clockBit, h]

theorem clockBit_of_response {s : State} (bit : Bool) (h : s.mgmt.receiver.state = .response) :
    clockBit bit s = s.setReceiver { s.mgmt.receiver with shifted := s.mgmt.receiver.shifted + 1 } := by
  simp only [clockBit, h]

/-- A bit that does not complete its byte is noted. -/
theorem clockBit_of_part {s : State} (bit : Bool)
    (h : s.mgmt.receiver.state = .command ∨ s.mgmt.receiver.state = .arguments)
    (hlen : s.mgmt.receiver.bits.length < 7) :
    clockBit bit s = s.setReceiver { s.mgmt.receiver with bits := s.mgmt.receiver.bits ++ [bit] } := by
  have hne : (s.mgmt.receiver.bits ++ [bit]).length ≠ 8 := by
    rw [List.length_append, List.length_singleton]; omega
  rcases h with h | h <;> simp only [clockBit, h, if_neg hne]

theorem knownCode_eq_false {code : Byte} (h : code.toNat = 0 ∨ 15 < code.toNat) : knownCode code = false := by
  simp only [knownCode, Bool.and_eq_false_iff, decide_eq_false_iff_not]
  omega

theorem exec_unknownCommand {s : State} {code : Byte} (h : code.toNat = 0 ∨ 15 < code.toNat) :
    exec (.unknownCommand code) s = .next (takeFrame code [] (fun t => (resUnknown, t)) s) := by
  show Host.Outcome.next (if knownCode code then s else _) = _
  rw [knownCode_eq_false h]
  rfl

/-! ## Readings -/

theorem takeReadParam_of_get {s : State} {id : Byte} {v : Nat} (h : s.mgmt.params.get id.toNat = some v) :
    takeReadParam id s = ([0x00#8, BitVec.ofNat 8 (v / 256), BitVec.ofNat 8 v], s) := by
  simp only [takeReadParam, h]
  rfl

theorem takeReadParam_of_none {s : State} {id : Byte} (h : s.mgmt.params.get id.toNat = none) :
    takeReadParam id s = ([0x02#8], s) := by
  simp only [takeReadParam, h]
  rfl

theorem takeReadCounter_of_id {s : State} {id : Byte} {c : Counter} (h : c.id.val = id.toNat) :
    takeReadCounter id s = ([0x00#8, (s.counter c >>> 24).setWidth 8, (s.counter c >>> 16).setWidth 8,
      (s.counter c >>> 8).setWidth 8, (s.counter c).setWidth 8], s) := by
  have hlt : id.toNat < 10 := h ▸ c.id.isLt
  have hcounter : s.mgmt.counters[id.toNat]'hlt = s.counter c := by
    simp only [← h]; rfl
  simp only [takeReadCounter, hlt, dif_pos, hcounter]
  rfl

theorem takeReadCounter_of_not_id {s : State} {id : Byte} (h : 9 < id.toNat) :
    takeReadCounter id s = ([0x02#8], s) :=
  dif_neg (by omega)

/-- READ FLAGS reads bits 14 and 15 as 0; the low byte holds flags only. -/
theorem argWord_flags (flags : BitVec 16) :
    argWord (flags &&& flagBits) = [((flags &&& 0x3FFF#16) >>> 8).setWidth 8, flags.setWidth 8] := by
  have hlow : (flags &&& flagBits).setWidth 8 = flags.setWidth 8 := by
    rw [flagBits, BitVec.setWidth_and]
    exact BitVec.and_allOnes
  rw [argWord, hlow]
  rfl

/-- Settles O46. -/
theorem readingCommandsAnswer : Obligations.ReadingCommandsAnswer := by
  refine ⟨fun s bit code => ⟨?idle, ?response, ?part, ?unknown⟩, fun s id => ⟨?identify, ?flags, ?param, ?counter⟩⟩
  case idle => exact fun h => congrArg Host.Outcome.next (clockBit_of_idle bit h)
  case response => exact fun h => congrArg Host.Outcome.next (clockBit_of_response bit h)
  case part => exact fun h hlen => congrArg Host.Outcome.next (clockBit_of_part bit h hlen)
  case unknown => exact fun hframe hcode => (exec_unknownCommand hcode).trans (next_takeFrame hframe rfl)
  case identify => exact fun hframe => next_takeFrame hframe rfl
  case flags =>
    intro hframe
    refine next_takeFrame hframe ?_
    rw [takeReadFlags, argWord_flags]
    rfl
  case param =>
    refine fun hframe => ⟨fun v hv => next_takeFrame hframe (takeReadParam_of_get hv), fun hid => ?_⟩
    exact next_takeFrame hframe (takeReadParam_of_none (Params.get_of_not_range _ (by omega)))
  case counter =>
    exact fun hframe => ⟨fun c hc => next_takeFrame hframe (takeReadCounter_of_id hc),
      fun hid => next_takeFrame hframe (takeReadCounter_of_not_id hid)⟩

/-! ## STATUS and the queries -/

theorem strapPresent_b (strap : Strap) : strapPresent strap .b = decide (strap = .two) := by
  cases strap <;> rfl

/-- R182: bank B's state reads Fh when the strap selects one bank. -/
theorem bankStates_eq (s : State) : s.bankStates =
    s.bankA.state.code ++ (if s.service.strap = .two then s.bankB.state.code else 0xF#4) := by
  rw [State.bankStates, strapPresent_b]
  simp

theorem statusBytes_eq (s : State) : s.statusBytes =
    [ s.service.state.code,
      (if s.service.latch.capacity then 1#8 else 0#8) ||| (if s.service.latch.commitStuck then 2#8 else 0#8) |||
        (if s.service.latch.reclaimHalted then 4#8 else 0#8),
      BitVec.ofNat 8 (s.recordsIn .free).length,
      BitVec.ofNat 8 s.blocks.eraseQueue.length,
      BitVec.ofNat 8 (s.countEntries fun e => e.state == .gathering),
      BitVec.ofNat 8 (s.countEntries fun e => e.state == .closed),
      BitVec.ofNat 8 (s.countEntries fun e => e.state == .committing),
      BitVec.ofNat 8 (s.countEntries fun e => e.state == .stuck),
      BitVec.ofNat 8 (s.recordsIn .retired).length,
      s.blocks.reclaim.code,
      (match s.blocks.victim with | some b => BitVec.ofNat 8 b.val | none => 0xFF#8),
      s.bankA.state.code ++ (if s.service.strap = .two then s.bankB.state.code else 0xF#4),
      BitVec.ofNat 8 (s.capacity / 256),
      BitVec.ofNat 8 s.capacity,
      (match s.blocks.openBlock with | some (b, _) => BitVec.ofNat 8 b.val | none => 0xFF#8),
      (match s.blocks.openBlock with | some (_, n) => BitVec.ofNat 8 n | none => 0x00#8) ] := by
  rw [← bankStates_eq]
  unfold State.statusBytes
  cases s.blocks.victim <;> cases s.blocks.openBlock <;> rfl

/-- The data block that two operand bytes name (R168). -/
theorem blockNamed_eq_none {strap : Strap} {bank index : Byte} (h : 1 < bank.toNat ∨ 63 < index.toNat ∨
    (bank = 0#8 ∧ index = 0#8) ∨ (bank = 1#8 ∧ strap = .one)) : blockNamed strap bank index = none := by
  unfold blockNamed
  split
  case isTrue => rfl
  case isFalse hindex =>
    split
    case isTrue hbank =>
      subst hbank
      rcases h with h | h | ⟨-, h⟩ | ⟨h, -⟩
      · simp at h
      · exact absurd h hindex
      · rw [if_pos h]
      · cases h
    case isFalse hbank =>
      split
      case isTrue hone =>
        subst hone
        rcases h with h | h | ⟨h, -⟩ | ⟨-, h⟩
        · simp at h
        · exact absurd h hindex
        · cases h
        · subst h; rfl
      case isFalse => rfl

theorem blockNamed_eq_some {strap : Strap} {bank index : Byte} {b : BlockRef} (hbank : bank.toNat ≤ 1)
    (hindex : index.toNat ≤ 63) (hval : b.val = 64 * bank.toNat + index.toNat) (hb : b ≠ 0)
    (hstrap : bank = 1#8 → strap = .two) : blockNamed strap bank index = some b := by
  have hb0 : b.val ≠ 0 := fun h => hb (Fin.ext h)
  unfold blockNamed
  rw [if_neg (by omega)]
  by_cases h0 : bank = 0#8
  · subst h0
    have hne : index ≠ 0#8 := by rintro rfl; simp at hval; exact hb0 (by simpa using hval)
    rw [if_pos rfl, if_neg hne]
    refine congrArg some (Fin.ext ?_)
    simp at hval
    rw [hval]
    exact Nat.mod_eq_of_lt (by omega)
  · have h1 : bank = 1#8 := by
      have hne : bank.toNat ≠ 0 := fun h => h0 (BitVec.eq_of_toNat_eq h)
      exact BitVec.eq_of_toNat_eq (show bank.toNat = 1 by omega)
    rw [if_neg h0, if_pos h1, hstrap h1]
    subst h1
    refine congrArg some (Fin.ext ?_)
    simp at hval
    rw [hval]
    exact Nat.mod_eq_of_lt (by omega)

theorem takeQueryPage_of_mounted {s : State} {lpn : BitVec 16} (h : s.volumeMounted = true)
    (hpage : lpn.toNat < s.capacity) : takeQueryPage lpn s = (0x00#8 :: s.pageBytes lpn.toNat, s) := by
  simp only [takeQueryPage, h, Nat.not_le.mpr hpage, if_false]
  rfl

theorem takeQueryBlock_of_named {s : State} {bank index : Byte} {b : BlockRef} (h : s.service.state ≠ .formatting)
    (hb : blockNamed s.service.strap bank index = some b) :
    takeQueryBlock bank index s = (0x00#8 :: s.blockBytes b, s) := by
  simp only [takeQueryBlock, if_neg h, hb]
  rfl

theorem blockBytes_of_record {s : State} {b : BlockRef} {r : BlockRecord} (h : s.record b = some r) :
    s.blockBytes b = [ r.state.code, byteOf (r.eraseCount / 65536), byteOf (r.eraseCount / 256), byteOf r.eraseCount,
      byteOf r.claimed, byteOf r.live, if r.condemned then 1#8 else 0#8 ] := by
  simp only [State.blockBytes, h]

theorem blockBytes_of_none {s : State} {b : BlockRef} (h : s.record b = none) :
    s.blockBytes b = [0xFF#8, 0, 0, 0, 0, 0, 0] := by
  simp only [State.blockBytes, h]

/-- Settles O48. -/
theorem statusAndQueriesAnswer : Obligations.StatusAndQueriesAnswer := by
  refine ⟨fun s hframe => ?status, fun s => ⟨fun lpn hframe => ⟨fun hno => ?notMounted, fun hyes hpage => ?beyond,
    fun hyes hpage => ⟨fun m hm => ?mapped, fun hm => ?unmapped⟩⟩, fun bank index hframe =>
    ⟨fun hformat => ?formatting, fun hother => ⟨fun hnone => ?noBlock, fun b hbank hindex hval hb hstrap =>
      ⟨fun r hr => ?record, fun hr => ?noRecord⟩⟩⟩⟩⟩
  case status =>
    refine next_takeFrame hframe ?_
    rw [takeStatus, statusBytes_eq]
    rfl
  case notMounted => exact next_takeFrame hframe (by simp only [takeQueryPage, hno]; rfl)
  case beyond => exact next_takeFrame hframe (by simp only [takeQueryPage, hyes, hpage]; rfl)
  case mapped =>
    refine next_takeFrame hframe ((takeQueryPage_of_mounted hyes hpage).trans ?_)
    simp only [State.pageBytes, hm]
    rfl
  case unmapped =>
    refine next_takeFrame hframe ((takeQueryPage_of_mounted hyes hpage).trans ?_)
    simp only [State.pageBytes, hm]
    rfl
  case formatting => exact next_takeFrame hframe (if_pos hformat)
  case noBlock => exact next_takeFrame hframe (by simp only [takeQueryBlock, if_neg hother, blockNamed_eq_none hnone]; rfl)
  case record =>
    refine next_takeFrame hframe ((takeQueryBlock_of_named hother
      (blockNamed_eq_some hbank hindex hval hb hstrap)).trans ?_)
    rw [blockBytes_of_record hr]
    rfl
  case noRecord =>
    refine next_takeFrame hframe ((takeQueryBlock_of_named hother
      (blockNamed_eq_some hbank hindex hval hb hstrap)).trans ?_)
    rw [blockBytes_of_none hr]
    rfl

end Sys2Proof.Machine
end

section
/-! PROOF. The bank controllers' own decisions (spec 05): the choice among the request slots, the suspend and its
acknowledgement, and the end of a bank reset. -/

-- In order: as one text the package would start more threads than memory has stacks for.
set_option Elab.async false

namespace Sys2Proof.Machine

theorem setBank_setBank (s : State) (bk : BankId) (k x : BankCtl) : (s.setBank bk k).setBank bk x = s.setBank bk x := by
  cases bk <;> rfl

/-! ## The oldest request (R98) -/

theorem foldl_earlier_eq_some {x : ReqClass × Nat} (l : List (ReqClass × Nat)) (acc : Option (ReqClass × Nat))
    (hmem : acc = some x ∨ x ∈ l) (hacc : ∀ y, acc = some y → y ≠ x → x.2 < y.2)
    (hmin : ∀ y ∈ l, y ≠ x → x.2 < y.2) : l.foldl earlier acc = some x := by
  induction l generalizing acc with
  | nil => simpa using hmem
  | cons z l ih =>
    have hz := hmin z List.mem_cons_self
    have htail : ∀ y ∈ l, y ≠ x → x.2 < y.2 := fun y hy => hmin y (List.mem_cons_of_mem _ hy)
    rw [List.foldl_cons]
    cases acc with
    | none =>
      refine ih (some z) ?_ ?_ htail
      · simpa [eq_comm] using hmem
      · rintro y ⟨⟩
        exact hz
    | some a =>
      have ha := hacc a rfl
      unfold earlier
      dsimp only
      split
      case isTrue hlt =>
        refine ih (some z) ?_ (by rintro y ⟨⟩; exact hz) htail
        rcases hmem with hmem | hmem
        · by_cases hzx : z = x
          · exact .inl (congrArg some hzx)
          · have := hz hzx
            obtain rfl := Option.some.inj hmem
            omega
        · rcases List.mem_cons.mp hmem with rfl | hmem
          · exact .inl rfl
          · exact .inr hmem
      case isFalse hge =>
        refine ih (some a) ?_ (by rintro y ⟨⟩; exact ha) htail
        rcases hmem with hmem | hmem
        · exact .inl hmem
        · rcases List.mem_cons.mp hmem with rfl | hmem
          · by_cases hax : a = x
            · exact .inl (congrArg some hax)
            · have := ha hax
              omega
          · exact .inr hmem

/-- The requests that `BankCtl.oldest` compares: those of the mover, descriptor and volume slots that satisfy `p`. -/
def BankCtl.waiting (k : BankCtl) (p : ReqClass → ReqOp → Bool) : List (ReqClass × Nat) :=
  [ReqClass.mover, .descriptor, .volume].filterMap fun c =>
    match k.slot c with
    | some r => if p c r.op then some (c, r.moment) else none
    | none => none

theorem oldest_eq (k : BankCtl) (p : ReqClass → ReqOp → Bool) :
    k.oldest p = ((k.waiting p).foldl earlier none).map Prod.fst := rfl

theorem mem_waiting_iff {k : BankCtl} {p : ReqClass → ReqOp → Bool} {x : ReqClass × Nat} :
    x ∈ k.waiting p ↔ ∃ q, k.slot x.1 = some q ∧ p x.1 q.op = true ∧ x.2 = q.moment := by
  obtain ⟨c, m⟩ := x
  constructor
  · intro h
    obtain ⟨c', -, h⟩ := List.mem_filterMap.mp h
    split at h
    case h_1 r hslot =>
      split at h
      case isTrue hp =>
        cases h
        exact ⟨r, hslot, hp, rfl⟩
      case isFalse => cases h
    case h_2 => cases h
  · rintro ⟨q, hslot, hp, rfl⟩
    refine List.mem_filterMap.mpr ⟨c, ?_, by simp [hslot, hp]⟩
    cases c
    case host => cases hslot
    all_goals simp

/-- R98: a waiting request handed over before every other one is chosen. -/
theorem oldest_eq_some {k : BankCtl} {p : ReqClass → ReqOp → Bool} {c : ReqClass} {q : Request}
    (hslot : k.slot c = some q) (hp : p c q.op = true)
    (hmin : ∀ c' q', k.slot c' = some q' → c' ≠ c → p c' q'.op = true → q.moment < q'.moment) :
    k.oldest p = some c := by
  rw [oldest_eq, foldl_earlier_eq_some (x := (c, q.moment)) _ none (.inr (mem_waiting_iff.mpr ⟨q, hslot, hp, rfl⟩))
    nofun ?_]
  · rfl
  · rintro ⟨c', m⟩ hmem hne
    obtain ⟨q', hslot', hp', rfl⟩ := mem_waiting_iff.mp hmem
    refine hmin c' q' hslot' (fun hc => hne ?_) hp'
    subst hc
    cases hslot.symm.trans hslot'
    rfl

theorem oldest_eq_none {k : BankCtl} {p : ReqClass → ReqOp → Bool}
    (h : ∀ c q, k.slot c = some q → p c q.op = false) : k.oldest p = none := by
  have hnil : k.waiting p = [] := List.eq_nil_iff_forall_not_mem.mpr fun x hx => by
    obtain ⟨q, hslot, hp, -⟩ := mem_waiting_iff.mp hx
    simp [h _ _ hslot] at hp
  rw [oldest_eq, hnil]
  rfl

/-! ## The choice by the bank's state (R98) -/

theorem kickBank_of_idle {s : State} {bk : BankId} (hactive : (s.bank bk).active = none)
    (hstate : (s.bank bk).state = .idle) : kickBank bk s = chooseIdle bk s := by
  simp only [kickBank, hactive, hstate]

theorem kickBank_of_suspended {s : State} {bk : BankId} {c : EraseContext} (hactive : (s.bank bk).active = none)
    (hstate : (s.bank bk).state = .suspended) (hcontext : (s.bank bk).context = some c) :
    kickBank bk s = chooseSuspended bk c.powerHold s := by
  simp only [kickBank, hactive, hstate, hcontext]

theorem kickBank_of_busy {s : State} {bk : BankId} (h : (s.bank bk).state = .read ∨ (s.bank bk).state = .program ∨
    (s.bank bk).state = .suspending ∨ (s.bank bk).state = .resetting) : kickBank bk s = s := by
  unfold kickBank
  dsimp only
  split
  · rfl
  · rcases h with h | h | h | h <;> simp only [h]

theorem bank_beginAction (bk : BankId) (c : ReqClass) (a : Action) (s : State) :
    (beginAction bk c a s).bank bk = { (s.bank bk).markBegun c with
      active := some { cls := c, act := a }
      state := if (s.bank bk).state = .suspended then .suspended else if a.isProgram then .program else .read
      programTimer := if a.isProgram then some s.mgmt.params.programTimeout else (s.bank bk).programTimer } :=
  setBank_bank ..

theorem markBegun_context (k : BankCtl) (c : ReqClass) : (k.markBegun c).context = k.context := by
  cases c <;> rfl

theorem beginAction_context (bk : BankId) (c : ReqClass) (a : Action) (s : State) :
    ((beginAction bk c a s).bank bk).context = (s.bank bk).context := by
  rw [bank_beginAction]
  exact markBegun_context ..

theorem beginClass_of_slot {s : State} {bk : BankId} {c : ReqClass} {q : Request} (h : (s.bank bk).slot c = some q) :
    beginClass bk c s = beginAction bk c (q.op.action (s.flash bk)) s := by
  simp only [beginClass, h]

theorem chooseIdle_of_oldest {s : State} {bk : BankId} {c : ReqClass} (hread : (s.bank bk).hostRead = none)
    (h : ((s.bank bk).oldest fun _ _ => true) = some c) : chooseIdle bk s = beginClass bk c s := by
  simp only [chooseIdle, hread, h]

theorem chooseIdle_of_erase {s : State} {bk : BankId} {r : EraseRequest} (hread : (s.bank bk).hostRead = none)
    (h : ((s.bank bk).oldest fun _ _ => true) = none) (herase : (s.bank bk).erase = some r) :
    chooseIdle bk s = if s.pins.pfail || s.drain.restartPending then s else beginErase bk r s := by
  simp only [chooseIdle, hread, h, herase]

theorem chooseIdle_of_none {s : State} {bk : BankId} (hread : (s.bank bk).hostRead = none)
    (h : ((s.bank bk).oldest fun _ _ => true) = none) (herase : (s.bank bk).erase = none) : chooseIdle bk s = s := by
  simp only [chooseIdle, hread, h, herase]

theorem chooseSuspended_of_oldest {s : State} {bk : BankId} {hold : Bool} {c : ReqClass}
    (hread : (s.bank bk).hostRead = none)
    (h : ((s.bank bk).oldest fun c op => hold || (op.isRead && c != .descriptor)) = some c) :
    chooseSuspended bk hold s = beginClass bk c s := by
  simp only [chooseSuspended, hread, h]

theorem chooseSuspended_of_none {s : State} {bk : BankId} {hold : Bool} (hread : (s.bank bk).hostRead = none)
    (h : ((s.bank bk).oldest fun c op => hold || (op.isRead && c != .descriptor)) = none) :
    chooseSuspended bk hold s = if hold then s else resumeErase bk s := by
  simp only [chooseSuspended, hread, h]

theorem readWaits_eq_false_iff {k : BankCtl} : k.readWaits = false ↔
    k.hostRead = none ∧ (k.oldest fun c op => op.isRead && c != .descriptor) = none := by
  simp [BankCtl.readWaits]

/-- R98: what an IDLE bank does with a host read, with a request older than every other, with an erase alone, and with
no request. -/
theorem kickBank_idle_cases {s : State} {bk : BankId} (hactive : (s.bank bk).active = none)
    (hstate : (s.bank bk).state = .idle) :
    (∀ h, (s.bank bk).hostRead = some h → kickBank bk s = beginHostRead bk h s) ∧
    (∀ c q, (s.bank bk).hostRead = none → (s.bank bk).slot c = some q →
      (∀ c' q', (s.bank bk).slot c' = some q' → c' ≠ c → q.moment < q'.moment) →
      kickBank bk s = beginAction bk c (q.op.action (s.flash bk)) s) ∧
    ((s.bank bk).hostRead = none → (∀ c, (s.bank bk).slot c = none) →
      (∀ r, (s.bank bk).erase = some r → kickBank bk s =
        if s.pins.pfail = true ∨ s.drain.restartPending = true then s else beginErase bk r s) ∧
      ((s.bank bk).erase = none → kickBank bk s = s)) := by
  refine ⟨fun h hread => kickBank_of_hostRead_idle hactive hstate hread, fun c q hread hslot hmin => ?_,
    fun hread hnone => ?_⟩
  · rw [kickBank_of_idle hactive hstate, chooseIdle_of_oldest hread (oldest_eq_some hslot rfl fun c' q' h hne _ =>
      hmin c' q' h hne), beginClass_of_slot hslot]
  · have hempty : ∀ c q, (s.bank bk).slot c = some q → true = false := fun c q h => by simp [hnone c] at h
    rw [kickBank_of_idle hactive hstate]
    refine ⟨fun r herase => ?_, chooseIdle_of_none hread (oldest_eq_none hempty)⟩
    rw [chooseIdle_of_erase hread (oldest_eq_none hempty) herase]
    simp only [Bool.or_eq_true]

theorem chooses_iff {hold : Bool} {c : ReqClass} {op : ReqOp} :
    (hold || (op.isRead && c != .descriptor)) = true ↔ hold = true ∨ (op.isRead = true ∧ c ≠ .descriptor) := by
  simp

/-- Settles O35: the clauses follow the branches of `kickBank`, with `BankCtl.oldest` decided by the moments. -/
theorem banksChooseInOrder : Obligations.BanksChooseInOrder := by
  intro s bk
  refine ⟨kickBank_oneBank bk s, fun hactive => ⟨fun hstate => ?idle, fun c hstate hcontext => ?suspended,
    fun c hstate hcontext => ?erase, kickBank_of_busy⟩⟩
  case idle =>
    obtain ⟨hhost, hoverall, hrest⟩ := kickBank_idle_cases hactive hstate
    refine ⟨fun h hread => ?_, fun c q hread hslot hmin => ?_, hrest⟩
    · rw [hhost h hread]
      exact bank_beginHostRead_idle h hstate
    · rw [hoverall c q hread hslot hmin, bank_beginAction]
      refine ⟨rfl, fun hprogram => ?_, fun hprogram => ?_⟩ <;> simp [hprogram, hstate]
  case suspended =>
    rw [kickBank_of_suspended hactive hstate hcontext]
    refine ⟨fun h hread => ?_, fun hread => ⟨fun k q hslot hmay hmin => ?_, fun hhold hnone => ?_⟩,
      fun hhold hwaits => ?_⟩
    · rw [show chooseSuspended bk c.powerHold s = beginHostRead bk h s by simp only [chooseSuspended, hread]]
      refine ⟨?_, (beginAction_context ..).trans hcontext, ?_⟩ <;> simp [beginHostRead, bank_beginAction, hstate]
    · have hoverall := oldest_eq_some (p := fun k op => c.powerHold || (op.isRead && k != .descriptor)) hslot
        (chooses_iff.mpr hmay) fun k' q' h hne hp => hmin k' q' h hne (chooses_iff.mp hp)
      rw [chooseSuspended_of_oldest hread hoverall, beginClass_of_slot hslot]
      refine ⟨?_, (beginAction_context ..).trans hcontext, ?_, fun hprogram => ?_⟩
      · simp [bank_beginAction, hstate]
      · simp [bank_beginAction]
      · simp [bank_beginAction, hprogram]
    · rw [chooseSuspended_of_none hread (oldest_eq_none fun k q h => by simp [hnone k] at h), if_pos hhold]
    · obtain ⟨hread, hold⟩ := readWaits_eq_false_iff.mp hwaits
      rw [chooseSuspended_of_none hread (by simpa [hhold] using hold), if_neg (by simp [hhold])]
      simp only [resumeErase, hcontext, Option.map_some]
  case erase =>
    rw [kickBank_of_erase hactive hstate hcontext, decideSuspend_eq, requestSuspend_eq _ _ hcontext]

/-! ## What a choice keeps in the bank -/

/-- R98, R103, R106: a bank's choice is nothing, an action, an erase, a suspend or a resume. -/
theorem kickBank_cases (bk : BankId) (s : State) :
    kickBank bk s = s ∨ (∃ c a, kickBank bk s = beginAction bk c a s) ∨ (∃ r, kickBank bk s = beginErase bk r s) ∨
      (∃ hold, kickBank bk s = requestSuspend bk .read hold s) ∨ kickBank bk s = resumeErase bk s := by
  have hclass : ∀ c, beginClass bk c s = s ∨ ∃ d a, beginClass bk c s = beginAction bk d a s := by
    intro c
    cases h : (s.bank bk).slot c with
    | none => exact .inl (by simp only [beginClass, h])
    | some q => exact .inr ⟨c, _, beginClass_of_slot h⟩
  unfold kickBank
  dsimp only
  split
  · exact .inl rfl
  · split
    · unfold chooseIdle
      dsimp only
      split
      · exact .inr (.inl ⟨_, _, rfl⟩)
      · split
        case h_1 c _ =>
          rcases hclass c with h | h
          · exact .inl h
          · exact .inr (.inl h)
        · split
          · split
            · exact .inl rfl
            · exact .inr (.inr (.inl ⟨_, rfl⟩))
          · exact .inl rfl
    · split
      · unfold chooseSuspended
        dsimp only
        split
        · exact .inr (.inl ⟨_, _, rfl⟩)
        · split
          case h_1 c _ =>
            rcases hclass c with h | h
            · exact .inl h
            · exact .inr (.inl h)
          · split
            · exact .inl rfl
            · exact .inr (.inr (.inr (.inr rfl)))
      · exact .inl rfl
    · split
      · unfold decideSuspend
        split
        · exact .inr (.inr (.inr (.inl ⟨_, rfl⟩)))
        · exact .inl rfl
      · exact .inl rfl
    all_goals exact .inl rfl

/-- The bank's slot of a class holds a request for this operation. -/
def BankCtl.asks (k : BankCtl) (c : ReqClass) (op : ReqOp) : Prop := ∃ q, k.slot c = some q ∧ q.op = op

/-- The slot of a class holds the same request, begun or not, as it did (R97). -/
def BankCtl.sameSlot (c : ReqClass) (k x : BankCtl) : Prop :=
  (k.slot c).map (fun q => (q.op, q.moment)) = (x.slot c).map fun q => (q.op, q.moment)

theorem sameSlot_of_eq {c : ReqClass} {k x : BankCtl} (h : x.slot c = k.slot c) : BankCtl.sameSlot c k x := by
  rw [BankCtl.sameSlot, h]

theorem sameSlot_trans {c : ReqClass} {k x y : BankCtl} (hkx : BankCtl.sameSlot c k x) (hxy : BankCtl.sameSlot c x y) :
    BankCtl.sameSlot c k y := hkx.trans hxy

theorem exists_of_sameSlot {c : ReqClass} {k x : BankCtl} {q : Request} (h : BankCtl.sameSlot c k x)
    (hk : k.slot c = some q) : ∃ q', x.slot c = some q' ∧ q'.op = q.op ∧ q'.moment = q.moment := by
  rw [BankCtl.sameSlot, hk, Option.map_some] at h
  obtain ⟨q', hq', heq⟩ := Option.map_eq_some_iff.mp h.symm
  exact ⟨q', hq', congrArg Prod.fst heq, congrArg Prod.snd heq⟩

theorem BankCtl.asks.of_sameSlot {c : ReqClass} {k x : BankCtl} {op : ReqOp} (h : k.asks c op)
    (hsame : BankCtl.sameSlot c k x) : x.asks c op := by
  obtain ⟨q, hq, rfl⟩ := h
  obtain ⟨q', hq', hop, -⟩ := exists_of_sameSlot hsame hq
  exact ⟨q', hq', hop⟩

theorem markBegun_sameSlot (k : BankCtl) (c d : ReqClass) : BankCtl.sameSlot d k (k.markBegun c) := by
  cases c <;> cases d <;> simp [BankCtl.sameSlot, BankCtl.markBegun, BankCtl.setSlot, BankCtl.slot, Function.comp_def]

/-- A bank's choice takes no request out of a slot and puts none into it (R97), and leaves the bank reset alone. -/
theorem kickBank_keeps (bk other : BankId) (c : ReqClass) (s : State) :
    BankCtl.sameSlot c (s.bank other) ((kickBank bk s).bank other) ∧
      ((kickBank bk s).bank other).resetTimer = (s.bank other).resetTimer := by
  by_cases hbk : other = bk
  · subst hbk
    rcases kickBank_cases other s with h | ⟨d, a, h⟩ | ⟨r, h⟩ | ⟨hold, h⟩ | h <;> rw [h]
    · exact ⟨rfl, rfl⟩
    · rw [bank_beginAction]
      refine ⟨(markBegun_sameSlot _ d c).trans ?_, by cases d <;> rfl⟩
      cases c <;> rfl
    · rw [beginErase, setBank_bank]
      exact ⟨by cases c <;> rfl, rfl⟩
    · rw [requestSuspend, setBank_bank]
      exact ⟨by cases c <;> rfl, rfl⟩
    · rw [resumeErase, setBank_bank]
      exact ⟨by cases c <;> rfl, rfl⟩
  · rw [(kickBank_oneBank bk s).bank_ne hbk]
    exact ⟨rfl, rfl⟩

theorem kickBanks_keeps (bk : BankId) (c : ReqClass) (s : State) :
    BankCtl.sameSlot c (s.bank bk) ((kickBanks s).bank bk) ∧
      ((kickBanks s).bank bk).resetTimer = (s.bank bk).resetTimer := by
  obtain ⟨hslotA, htimerA⟩ := kickBank_keeps .a bk c s
  obtain ⟨hslotB, htimerB⟩ := kickBank_keeps .b bk c (kickBank .a s)
  exact ⟨hslotA.trans hslotB, htimerB.trans htimerA⟩

theorem handOver_asks (bk : BankId) {c : ReqClass} (op : ReqOp) (s : State) (hc : c ≠ .host) :
    ((handOver bk c op s).bank bk).asks c op := by
  rw [handOver, setBank_bank]
  cases c
  case host => exact absurd rfl hc
  all_goals exact ⟨_, rfl, rfl⟩

theorem handOver_resetTimer (bk other : BankId) (c : ReqClass) (op : ReqOp) (s : State) :
    ((handOver bk c op s).bank other).resetTimer = (s.bank other).resetTimer := by
  by_cases h : other = bk
  · subst h
    rw [handOver, setBank_bank]
    cases c <;> rfl
  · rw [(handOver_oneBank bk c op s).bank_ne h]

/-! ## Suspends (R103, R104) -/

/-- Settles O31: both expiries end in the bank's choice, which in ERASE is the suspend decision. -/
theorem suspendsAreDecidedAndAcknowledged : Obligations.SuspendsAreDecidedAndAcknowledged := by
  refine ⟨fun s bk => ⟨fun c hstate hactive hcontext => ?_, fun hstate => ?_⟩,
    fun s bk => ⟨fun c hstate hcontext => ?_, fun hstate => ?_⟩⟩
  · let x : EraseContext := { c with quantumTimer := none }
    let k : BankCtl := { s.bank bk with context := some x }
    have hstop : stopQuantum bk s = s.setBank bk k := by simp [stopQuantum, hcontext, k, x]
    have hbank : (s.setBank bk k).bank bk = k := setBank_bank ..
    have hkick : kickBank bk (s.setBank bk k) = decideSuspend bk x (s.setBank bk k) :=
      kickBank_of_erase (by rw [hbank]; exact hactive) (by rw [hbank]; exact hstate) (by rw [hbank])
    have hwaits : k.readWaits = (s.bank bk).readWaits := rfl
    refine congrArg Host.Outcome.next ((if_pos hstate).trans ?_)
    rw [hstop, hkick, decideSuspend_eq, requestSuspend_eq (c := x) _ _ (by rw [hbank]), hbank, hwaits]
    by_cases h : (s.bank bk).readWaits = true ∧ c.suspendCount < c.suspendLimit
    · rw [if_pos h, if_pos ⟨h.1, rfl, h.2⟩]
      rw [setBank_setBank, setBank_mgmt]
    · rw [if_neg h, if_neg fun hx => h ⟨hx.1, hx.2.2⟩]
  · exact congrArg Host.Outcome.next (if_neg hstate)
  · refine congrArg Host.Outcome.next ((if_pos hstate).trans ?_)
    simp only [suspendBank, hcontext, Option.map_some, EraseContext.acknowledged]
  · exact congrArg Host.Outcome.next (if_neg hstate)

/-! ## The end of a bank reset (R110, R135) -/

theorem exec_bankResetComplete_of_resetting {s : State} {bk : BankId} (h : (s.bank bk).state = .resetting) :
    exec (.bankResetComplete bk) s = .next (endBankReset bk s) := congrArg Host.Outcome.next (if_pos h)

theorem startScan_of_cons {bk : BankId} {w : MountWork} {s : State} {b : BlockRef} {rest : List BlockRef}
    (h : dataBlocks s.service.strap bk = b :: rest) : startScan bk w s =
      handOver bk .volume (.readSlot (headerOf b)) (s.setEngine (.mount (w.setPhase bk (.scanning (b :: rest))))) := by
  simp only [startScan, h]

theorem startScan_resetTimer (bk other : BankId) (w : MountWork) (s : State) :
    ((startScan bk w s).bank other).resetTimer = (s.bank other).resetTimer := by
  unfold startScan
  split
  · rfl
  · exact handOver_resetTimer ..

theorem mountResetDone_resetTimer (bk other : BankId) (w : MountWork) (s : State) :
    ((mountResetDone bk w s).bank other).resetTimer = (s.bank other).resetTimer := by
  unfold mountResetDone
  split
  · exact handOver_resetTimer ..
  · split
    · exact startScan_resetTimer ..
    · rfl
  · rfl

theorem kickBanks_asks {s : State} {bk : BankId} {c : ReqClass} {op : ReqOp} (h : (s.bank bk).asks c op) :
    ((kickBanks s).bank bk).asks c op := h.of_sameSlot (kickBanks_keeps bk c s).1

/-- Settles O34: the bank becomes IDLE, the mount goes on by `mountResetDone`, and the banks choose. -/
theorem bankResetEnds : Obligations.BankResetEnds := by
  intro s bk
  refine ⟨fun hstate => ⟨rfl, fun hengine => ?idle, fun w hengine hphase => ?mount⟩,
    fun hstate => ⟨congrArg Host.Outcome.next (if_neg hstate), congrArg Host.Outcome.next (if_neg hstate)⟩⟩
  case idle =>
    rw [exec_bankResetComplete_of_resetting hstate, endBankReset, volumeResetDone, setBank_engine, hengine]
  case mount =>
    let u := s.setBank bk { s.bank bk with state := .idle, resetTimer := none }
    have hu : (u.bank bk).resetTimer = none := by rw [setBank_bank]
    have hend : endBankReset bk s = kickBanks (mountResetDone bk w u) := by
      rw [endBankReset, volumeResetDone, setBank_engine, hengine]
    refine ⟨_, exec_bankResetComplete_of_resetting hstate, ?timer, fun ha => ?record, fun hb hvalid => ?waiting,
      fun hb hvalid hstrap => ?scan⟩ <;> rw [hend]
    case timer =>
      exact (kickBanks_keeps bk .host _).2.trans ((mountResetDone_resetTimer ..).trans hu)
    case record =>
      subst ha
      have hrecord : mountResetDone .a w u =
          handOver .a .volume (.readSlot (headerOf volumeBlock)) (u.setEngine (.mount (w.setPhase .a .record))) := by
        simp only [mountResetDone, hphase]
      rw [hrecord]
      exact ⟨(kickBanks_frame _).engine.trans (handOver_oneBank ..).frame.engine,
        kickBanks_asks (c := .volume) (handOver_asks .a _ _ nofun)⟩
    case waiting =>
      subst hb
      have hwaiting : mountResetDone .b w u = u.setEngine (.mount (w.setPhase .b .waiting)) := by
        simp only [mountResetDone, hphase, hvalid, Bool.false_eq_true, if_false]
      rw [hwaiting]
      exact (kickBanks_frame _).engine
    case scan =>
      subst hb
      have hscan : mountResetDone .b w u = startScan .b w u := by
        simp only [mountResetDone, hphase, hvalid, if_true]
      have hblocks : dataBlocks u.service.strap .b = 64 :: (dataBlocks .two .b).tail := by
        rw [show u.service.strap = .two from hstrap]
        decide
      rw [hscan, startScan_of_cons hblocks]
      exact ⟨(kickBanks_frame _).engine.trans (handOver_oneBank ..).frame.engine,
        kickBanks_asks (c := .volume) (handOver_asks .b _ _ nofun)⟩

end Sys2Proof.Machine
end

section
/-! PROOF. The ends of a drain and of an abandoned format, at their own commands (R149, R155, R159). -/

-- In order: as one text the package would start more threads than memory has stacks for.
set_option Elab.async false

namespace Sys2Proof.Machine

/-- R49: outside ACTIVE and DRAINING no source waits. -/
theorem granted_of_not_serving {s : State} (hactive : s.service.state ≠ .active)
    (hdraining : s.service.state ≠ .draining) : s.granted = .none :=
  granted_of_none_waits (by simp [State.commitWaits, hactive, hdraining]) (by simp [State.reclaimWaits, hactive])

theorem settle_of_not_granted {s : State} (h : s.granted = .none) : settle s = kickBanks s := by
  rw [settle, arbitrate_of_not_granted 32 h]

theorem settle_of_busy {s : State} (h : s.moverIdle = false) : settle s = kickBanks s := by
  rw [settle, arbitrate_of_busy 32 h]

/-- R153: the line is asserted; DRAIN DONE at its rise. -/
theorem assertLine_eq (s : State) : assertLine s =
    { (if s.drain.line then s else s.setFlag .drainDone) with drain := { s.drain with line := true } } := by
  unfold assertLine
  split
  case isTrue h =>
    conv_lhs => rw [show s = { s with drain := { s.drain with line := s.drain.line } } from rfl, h]
  case isFalse => rfl

theorem assertLine_setService (s : State) (x : ServiceState) : assertLine (s.setService x) =
    { (if s.drain.line then s else s.setFlag .drainDone) with
      service := { s.service with state := x }, drain := { s.drain with line := true } } := by
  rw [assertLine_eq, show (s.setService x).drain = s.drain from rfl]
  split <;> rfl

theorem assertLine_service (s : State) : (assertLine s).service = s.service := by
  unfold assertLine
  split <;> rfl

theorem drainReady_iff (s : State) : s.drainReady = true ↔ s.service.state = .draining ∧
    (if s.pins.pfail = true then s.drainDone = true
     else if s.drain.restartPending = true then s.drainDone = true ∧ (s.allBanks fun k => !k.eraseInProgress) = true
     else s.commitsAtRest = true) := by
  simp only [State.drainReady, Bool.and_eq_true, beq_iff_eq]
  split
  · rfl
  · split
    · rw [Bool.and_eq_true]
    · rfl

theorem completeDrain_of_pfail {s : State} (h : s.pins.pfail = true) :
    completeDrain s = assertLine (s.setService .drained) := if_pos h

theorem completeDrain_of_restart {s : State} (h : s.pins.pfail = false) (hrestart : s.drain.restartPending = true) :
    completeDrain s = internalReset s := by
  rw [completeDrain, if_neg (by simp [h]), if_pos hrestart]

theorem completeDrain_of_none {s : State} (h : s.pins.pfail = false) (hrestart : s.drain.restartPending = false) :
    completeDrain s = enterActive (setReturn none s) := by
  rw [completeDrain, if_neg (by simp [h]), if_neg (by simp [hrestart])]

theorem enterActive_frame (s : State) : BlockFrame (s.setService .active) (enterActive s) :=
  (evaluateTriggers_frame _).trans (serveErases_frame _)

/-! ## Nothing follows an internal reset -/

theorem kickBank_of_reset {s : State} {bk : BankId} (h : s.bank bk = .reset) : kickBank bk s = s := by
  obtain ⟨-, -, hrest⟩ := kickBank_idle_cases (s := s) (bk := bk) (by rw [h]; rfl) (by rw [h]; rfl)
  exact (hrest (by rw [h]; rfl) fun c => by rw [h]; cases c <;> rfl).2 (by rw [h]; rfl)

theorem kickBank_of_beginReset {s : State} {bk : BankId} {k : BankCtl} {timeout : Nat}
    (h : s.bank bk = k.beginReset timeout) : kickBank bk s = s :=
  kickBank_of_busy (.inr (.inr (.inr (by rw [h]; rfl))))

theorem kickBank_internalReset (bk : BankId) (s : State) : kickBank bk (internalReset s) = internalReset s := by
  have hbank := internalReset_bank s bk
  split at hbank
  · exact kickBank_of_beginReset hbank
  · exact kickBank_of_reset hbank

theorem internalReset_state (s : State) : (internalReset s).service.state = .mounting :=
  congrArg Service.state (internalReset_frame s).service

/-- R161: the mount has begun, and neither the arbiter nor a bank has anything to choose. -/
theorem settle_internalReset (s : State) : settle (internalReset s) = internalReset s := by
  have hstate := internalReset_state s
  rw [settle_of_not_granted (granted_of_not_serving (by simp [hstate]) (by simp [hstate])), kickBanks,
    kickBank_internalReset, kickBank_internalReset]

theorem exec_drainFinish_of_ready {s : State} (h : s.drainReady = true) :
    exec .drainFinish s = .next (settle (completeDrain s)) := congrArg Host.Outcome.next (if_pos h)

theorem state_of_settle (s : State) : (settle s).service.state = s.service.state := by
  rw [service_of_kept (settle_kept s)]

theorem drain_of_settle (s : State) : (settle s).drain = s.drain := congrArg Kept.drain (settle_kept s)

/-- Settles O38: `completeDrain` by its row, and what the arbiter and the banks may do after it. -/
theorem drainFinishFollowsItsRow : Obligations.DrainFinishFollowsItsRow := by
  refine fun s => ⟨drainReady_iff s, fun hready => ⟨fun hpfail => ?drained, fun hpfail hrestart => ?restart,
    fun hpfail hnone => ?active⟩, fun hnot => congrArg Host.Outcome.next (if_neg (by simp [hnot]))⟩
  all_goals rw [exec_drainFinish_of_ready hready]
  case drained =>
    have hservice := assertLine_service (s.setService .drained)
    rw [completeDrain_of_pfail hpfail, settle_of_not_granted (granted_of_not_serving (by simp [hservice])
      (by simp [hservice]))]
    have hframe := kickBanks_frame (assertLine (s.setService .drained))
    generalize kickBanks (assertLine (s.setService .drained)) = t at hframe
    refine ⟨t, rfl, Eq.trans hframe ?_⟩
    rw [assertLine_setService]
  case restart => rw [completeDrain_of_restart hpfail hrestart, settle_internalReset]
  case active =>
    have hframe := enterActive_frame (setReturn none s)
    rw [completeDrain_of_none hpfail hnone]
    exact ⟨_, rfl, (state_of_settle _).trans (congrArg Service.state hframe.service),
      (drain_of_settle _).trans hframe.drain⟩

/-- Settles O44. -/
theorem abandonedFormatEnds : Obligations.AbandonedFormatEnds := by
  refine fun s => ⟨fun habandoned hpfail hrest => ?line, fun hnot => congrArg Host.Outcome.next (if_neg (by simp [hnot])),
    fun habandoned hpfail hrest => ?ends, fun hnot => congrArg Host.Outcome.next (if_neg (by simp [hnot]))⟩
  case line =>
    refine congrArg Host.Outcome.next ((if_pos ?_).trans (assertLine_eq s))
    simp [habandoned, hpfail, hrest]
  case ends =>
    refine congrArg Host.Outcome.next (if_pos ?_)
    simp [habandoned, hpfail, hrest]

end Sys2Proof.Machine
end

section
/-! PROOF. The order of versions and the mount's choice among the candidates of a page (R7, R139); silent commits
(R15, R54). -/

-- In order: as one text the package would start more threads than memory has stacks for.
set_option Elab.async false

namespace Sys2Proof.Machine

/-! ## Versions (R7) -/

theorem newer_iff (a b : Version) : newer a b = true ↔
    1 ≤ (a.toNat + 4096 - b.toNat) % 4096 ∧ (a.toNat + 4096 - b.toNat) % 4096 ≤ 2047 := by
  have hsub : (a - b).toNat = (a.toNat + 4096 - b.toNat) % 4096 := by
    rw [BitVec.toNat_sub]
    omega
  simp [newer, hsub]

theorem newer_eq_false_iff (a b : Version) : newer a b = false ↔
    (a.toNat + 4096 - b.toNat) % 4096 = 0 ∨ 2048 ≤ (a.toNat + 4096 - b.toNat) % 4096 := by
  have h := newer_iff a b
  cases hnewer : newer a b <;> simp only [hnewer, Bool.false_eq_true, false_iff, true_iff, reduceCtorEq] at h ⊢ <;> omega

theorem not_newer_of_newer {a b : Version} (h : newer a b = true) : newer b a = false := by
  have hab := (newer_iff a b).mp h
  rw [newer_eq_false_iff]
  omega

theorem tied_iff (a b : Version) : (newer a b = false ∧ newer b a = false) ↔
    (a = b ∨ (a.toNat + 4096 - b.toNat) % 4096 = 2048) := by
  rw [newer_eq_false_iff, newer_eq_false_iff, ← BitVec.toNat_inj]
  have ha := a.isLt
  have hb := b.isLt
  omega

theorem scanKey_lt_iff (x y : SlotRef) :
    x.scanKey < y.scanKey ↔ x.block < y.block ∨ (x.block = y.block ∧ x.slot < y.slot) := by
  have hx := x.slot.isLt
  have hy := y.slot.isLt
  simp only [SlotRef.scanKey, Fin.lt_def, Fin.ext_iff]
  omega

/-! ## The choice among candidates (R139) -/

/-- A candidate against the choice so far for its page: the first is taken, a later one when it is newer. -/
def preferNewer (acc : Option MapEntry) (c : Candidate) : Option MapEntry :=
  match acc with
  | none => some { slot := c.slot, version := c.version }
  | some m => if newer c.version m.version then some { slot := c.slot, version := c.version } else some m

theorem assocGet_takeCandidate (acc : List (Nat × MapEntry) × List SlotRef) (c : Candidate) (page : Nat) :
    assocGet (takeCandidate acc c).1 page =
      if c.page = page then preferNewer (assocGet acc.1 page) c else assocGet acc.1 page := by
  unfold takeCandidate
  split
  case h_1 hnone =>
    split
    case isTrue h => subst h; rw [assocGet_assocSet_same, hnone]; rfl
    case isFalse h => exact assocGet_assocSet_ne _ _ (Ne.symm h)
  case h_2 m hsome =>
    split <;> split
    case isTrue.isTrue hnewer h => subst h; simp [hsome, preferNewer, hnewer]
    case isTrue.isFalse h => exact assocGet_assocSet_ne _ _ (Ne.symm h)
    case isFalse.isTrue hnewer h => subst h; simp [hsome, preferNewer, hnewer]
    case isFalse.isFalse => rfl

theorem assocGet_foldl_takeCandidate (cands : List Candidate) (acc : List (Nat × MapEntry) × List SlotRef)
    (page : Nat) : assocGet (cands.foldl takeCandidate acc).1 page =
      (cands.filter fun c => c.page == page).foldl preferNewer (assocGet acc.1 page) := by
  induction cands generalizing acc with
  | nil => rfl
  | cons c rest ih =>
    rw [List.foldl_cons, ih, assocGet_takeCandidate, List.filter_cons]
    by_cases h : c.page = page <;> simp [h]

theorem assocGet_chooseCandidates (cands : List Candidate) (page : Nat) :
    assocGet (chooseCandidates cands).1 page = (cands.filter fun c => c.page == page).foldl preferNewer none :=
  assocGet_foldl_takeCandidate cands ([], []) page

/-- Settles O57. -/
theorem newerVersionsAreChosen : Obligations.NewerVersionsAreChosen := by
  refine ⟨newer_iff, fun a b _ ⟨hab, hba⟩ => ?_, tied_iff, fun x y page a b => ?_, scanKey_lt_iff⟩
  · simp [not_newer_of_newer hab] at hba
  · rw [assocGet_chooseCandidates]
    simp only [beq_self_eq_true, List.filter_cons_of_pos, List.filter_nil, List.foldl_cons, List.foldl_nil, preferNewer]
    split <;> rfl

/-! ## Silent commits (R15, R45, R54) -/

theorem silentTest_of_equal {s : State} {r : OpRecord} {i : Fin 8} {policy : Bool} (hkind : r.kind = .commit i policy)
    (h : ∀ o b, (o, b) ∈ (s.entry i).staged → b = s.mover.buffer.getD o 0xFF#8) : silentTest r s = true := by
  rw [silentTest, List.all_eq_true]
  rintro ⟨o, b⟩ hmem
  simp only [overlay, hkind] at hmem
  exact beq_iff_eq.mpr (h o b hmem)

/-- R39, R45: with no write held, a released entry is EMPTY and may complete a flush. -/
theorem releaseEntry_of_none_waits {s : State} (i : Fin 8) (h : s.waiting .staging = none) : releaseEntry i s =
    if (s.entry i).cohort && !(s.setEntry i Entry.blank).flushPending then
      (s.setEntry i Entry.blank).setFlag .flushDone
    else s.setEntry i Entry.blank := by
  have hretry : ∀ t : State, t.port = s.port → retryHeld t = t := fun t hport => by
    simp only [retryHeld, waiting_congr hport, h]
  simp only [releaseEntry]
  refine hretry _ ?_
  split <;> rfl

theorem flushPending_setEntry_blank (s : State) (i : Fin 8) :
    (s.setEntry i Entry.blank).flushPending = false ↔ ∀ j, j ≠ i → (s.entry j).cohort = false := by
  rw [flushPending_eq_false_iff]
  refine forall_congr' fun j => ?_
  rw [entry_setEntry_eq]
  by_cases h : j = i <;> simp [h, Entry.blank]

/-- The entry that a silent commit releases completes a flush: it was marked and no other entry is. -/
def State.completesFlush (s : State) (i : Fin 8) : Prop :=
  (s.entry i).cohort = true ∧ ∀ j, j ≠ i → (s.entry j).cohort = false

theorem decideCommit_of_silent {s : State} {r : OpRecord} {i : Fin 8} (hsilent : silentTest r s = true)
    (hwaiting : s.waiting .staging = none) :
    (s.completesFlush i → decideCommit r i s =
      (((s.bump .silentCommits).setEntry i Entry.blank).setFlag .flushDone).setActivity .idle) ∧
    (¬ s.completesFlush i → decideCommit r i s =
      ((s.bump .silentCommits).setEntry i Entry.blank).setActivity .idle) := by
  have hdecide : decideCommit r i s = (releaseEntry i (s.bump .silentCommits)).setActivity .idle := by
    rw [decideCommit, if_pos hsilent]
    rfl
  have hiff : (((s.bump .silentCommits).entry i).cohort &&
      !((s.bump .silentCommits).setEntry i Entry.blank).flushPending) = true ↔ s.completesFlush i := by
    rw [Bool.and_eq_true, Bool.not_eq_true', flushPending_setEntry_blank]
    rfl
  rw [hdecide, releaseEntry_of_none_waits (s := s.bump .silentCommits) i hwaiting]
  refine ⟨fun h => ?_, fun h => ?_⟩
  · rw [if_pos (hiff.mpr h)]
  · rw [if_neg fun hx => h (hiff.mp hx)]

/-- Settles O56: the two ends of a silent commit differ in FLUSH DONE alone. -/
theorem silentCommitsProgramNothing : Obligations.SilentCommitsProgramNothing := by
  intro s r i policy hkind hequal hwaiting
  obtain ⟨hdone, hnot⟩ := decideCommit_of_silent (i := i) (silentTest_of_equal hkind hequal) hwaiting
  have hentry : ∀ j, ((s.bump .silentCommits).setEntry i Entry.blank).entry j =
      if j = i then Entry.blank else s.entry j := fun j => entry_setEntry_eq ..
  have hempty : (((s.bump .silentCommits).setEntry i Entry.blank).entry i).state = .empty := by
    rw [hentry, if_pos rfl]; rfl
  have hothers : ∀ j, j ≠ i → ((s.bump .silentCommits).setEntry i Entry.blank).entry j = s.entry j := fun j h => by
    rw [hentry, if_neg h]
  have hcounter := counter_bump s .silentCommits
  refine ⟨_, rfl, ?_⟩
  by_cases hflush : s.completesFlush i
  · rw [hdone hflush]
    exact ⟨rfl, hempty, hothers, rfl, hcounter, iff_of_true (by simp) (.inr hflush)⟩
  · rw [hnot hflush]
    exact ⟨rfl, hempty, hothers, rfl, hcounter, .inl, fun h => h.resolve_right hflush⟩

end Sys2Proof.Machine
end

section
/-! PROOF. The end of the mount and of the format (R142, R147, R148), with the block table that both hand to the block
manager and its capacity check (R89, R93). -/

-- In order: as one text the package would start more threads than memory has stacks for.
set_option Elab.async false

namespace Sys2Proof.Machine

/-! ## The capacity check and the block table -/

/-- `t` is `s` but for the latch, the staging buffer, the port, the flags and the block table. -/
def TableFrame (s t : State) : Prop :=
  t = { s with service := t.service, staging := t.staging, port := t.port, mgmt := t.mgmt, blocks := t.blocks }

namespace TableFrame

variable {s t u : State}

theorem refl (s : State) : TableFrame s s := rfl

theorem trans (hst : TableFrame s t) (htu : TableFrame t u) : TableFrame s u := by
  unfold TableFrame at *
  rw [htu, hst]

theorem pins (h : TableFrame s t) : t.pins = s.pins := by rw [h]
theorem drain (h : TableFrame s t) : t.drain = s.drain := by rw [h]
theorem engine (h : TableFrame s t) : t.engine = s.engine := by rw [h]
theorem pageMap (h : TableFrame s t) : t.pageMap = s.pageMap := by rw [h]
theorem mover (h : TableFrame s t) : t.mover = s.mover := by rw [h]
theorem bankA (h : TableFrame s t) : t.bankA = s.bankA := by rw [h]
theorem bankB (h : TableFrame s t) : t.bankB = s.bankB := by rw [h]

end TableFrame

theorem StagingFrame.tableFrame {s t : State} (h : StagingFrame s t) : TableFrame s t := by rw [h]; rfl

theorem refuseHeld_tableFrame (s : State) : TableFrame s (refuseHeld s) := by rw [refuseHeld_eq]; rfl

theorem readOnlyEffect_tableFrame (s : State) : TableFrame s s.readOnlyEffect := by
  unfold State.readOnlyEffect
  split
  · exact ((show TableFrame s (s.setFlag .readOnly) from rfl).trans (closeAll_frame _).tableFrame).trans
      (refuseHeld_tableFrame _)
  · rfl

theorem addCause_tableFrame (c : Cause) (s : State) : TableFrame s (addCause c s) := by
  cases h : s.service.latch.isSet with
  | true => rw [addCause_of_set c h]; rfl
  | false =>
    rw [addCause_of_clear c h]
    exact (readOnlyEffect_tableFrame s).trans rfl

theorem capacityCheck_tableFrame (s : State) : TableFrame s (capacityCheck s) := by
  unfold capacityCheck
  split
  · exact addCause_tableFrame ..
  · exact .refl s

theorem takeTable_tableFrame (records : List (BlockRef × BlockRecord)) (s : State) :
    TableFrame s (takeTable records s) := (show TableFrame s { s with blocks := _ } from rfl).trans
      (capacityCheck_tableFrame _)

/-- R89: the usable slots exceed L by less than 381. -/
def State.shortOfSlots (s : State) : Prop := (s.usableSlots : Int) - (s.capacity : Int) < 381

theorem capacityCheck_latch (s : State) : (capacityCheck s).service = { s.service with
    latch := (capacityCheck s).service.latch } ∧ ((capacityCheck s).service.latch.capacity = true ↔
      s.service.latch.capacity = true ∨ s.shortOfSlots) := by
  unfold capacityCheck
  split
  case isTrue h =>
    rw [addCause_service]
    exact ⟨rfl, iff_of_true rfl (.inr h)⟩
  case isFalse h => exact ⟨rfl, .inl, fun hx => hx.resolve_right h⟩

/-- Blocks with no live page join the erase queue; which blocks are RETIRED stays (R93). -/
theorem length_filter_takeTable (records : List (BlockRef × BlockRecord)) :
    ((records.map fun p => if p.2.state == .full && p.2.live == 0 then (p.1, { p.2 with state := BlockState.pendingErase })
      else p).filter fun p => p.2.state != .retired).length =
      (records.filter fun p => p.2.state != .retired).length := by
  rw [List.filter_map, List.length_map]
  refine congrArg List.length (List.filter_congr fun p _ => ?_)
  dsimp only [Function.comp]
  split
  case isTrue h =>
    have hfull : p.2.state = .full := by simp only [Bool.and_eq_true, beq_iff_eq] at h; exact h.1
    rw [hfull]
    rfl
  case isFalse => rfl

theorem takeTable_service (records : List (BlockRef × BlockRecord)) (s : State) :
    (takeTable records s).service = { s.service with latch := (takeTable records s).service.latch } ∧
      ((takeTable records s).service.latch.capacity = true ↔ s.service.latch.capacity = true ∨
        127 * ((records.filter fun p => p.2.state != .retired).length : Int) - (s.capacity : Int) < 381) := by
  unfold takeTable
  refine ⟨(capacityCheck_latch _).1, (capacityCheck_latch _).2.trans (or_congr_right ?_)⟩
  rw [← length_filter_takeTable]
  show (((127 * _ : Nat) : Int) - (s.capacity : Int) < 381) ↔ _
  rw [Nat.cast_mul]
  rfl

/-! ## What a released cycle leaves (R119) -/

/-- Drain control, the volume engine, the page map and the service controller but for the latch's causes COMMIT STUCK
and RECLAIM HALTED: what neither a cycle nor the arbiter changes. -/
def State.core (s : State) : List (Nat × MapEntry) × Drain × Engine × Service := (s.kept.pageMap, s.kept.drain,
  s.kept.engine, s.kept.service)

theorem core_of_kept {s t : State} (h : t.kept = s.kept) : t.core = s.core := by rw [State.core, h]; rfl

theorem completeCycle_core (fault : Bool) (data : Option HalfWord) (s : State) :
    (completeCycle fault data s).core = s.core := by
  unfold completeCycle
  split <;> rfl

theorem resolveRead_core (c : Cycle) (s : State) : (resolveRead c s).core = s.core := by
  have hread : ∀ (x : Cycle) (d : HalfWord) (u : State), (completeRead x d u).core = u.core :=
    fun x d u => completeCycle_core ..
  unfold resolveRead
  dsimp only
  split
  · exact (hread ..).trans rfl
  · split
    · exact (hread ..).trans rfl
    · refine core_of_kept ?_
      simp

theorem treatInRange_core (c : Cycle) (s : State) : (treatInRange c s).core = s.core := by
  unfold treatInRange
  split
  · exact resolveRead_core ..
  · split
    · unfold stageWrite
      split
      · exact completeCycle_core ..
      · exact core_of_kept (by simp)
    · exact (completeCycle_core ..).trans rfl
  · exact completeCycle_core ..

theorem treatCycle_core (c : Cycle) (s : State) : (treatCycle c s).core = s.core := by
  have hnone : ∀ b, (treatNoVolume b c s).core = s.core := fun b => by
    unfold treatNoVolume
    split <;> exact completeCycle_core ..
  have hrange : (if s.capacity ≤ c.page then faultRange c s else treatInRange c s).core = s.core := by
    split
    · exact completeCycle_core ..
    · exact treatInRange_core ..
  unfold treatCycle
  split
  · rfl
  · exact hnone _
  · exact hnone _
  · exact hrange
  · exact hrange
  · split
    · exact hrange
    · exact hnone _

theorem releaseMountHold_core (s : State) : (releaseMountHold s).core = s.core := by
  unfold releaseMountHold
  split
  · exact treatCycle_core ..
  · rfl

theorem engine_of_core {s t : State} (h : t.core = s.core) : t.engine = s.engine :=
  congrArg (fun x : List (Nat × MapEntry) × Drain × Engine × Service => x.2.2.1) h

theorem pageMap_of_core {s t : State} (h : t.core = s.core) : t.pageMap = s.pageMap := congrArg Prod.fst h

theorem drain_of_core {s t : State} (h : t.core = s.core) : t.drain = s.drain :=
  congrArg (fun x : List (Nat × MapEntry) × Drain × Engine × Service => x.2.1) h

theorem service_of_core {s t : State} (h : t.core = s.core) : t.service = { s.service with
    latch := { capacity := s.service.latch.capacity, commitStuck := t.service.latch.commitStuck,
               reclaimHalted := t.service.latch.reclaimHalted } } := by
  have hservice : t.kept.service = s.kept.service :=
    congrArg (fun x : List (Nat × MapEntry) × Drain × Engine × Service => x.2.2.2) h
  simp only [State.kept, Service.mk.injEq, Latch.mk.injEq] at hservice
  obtain ⟨hstate, hstrap, ⟨hcapacity, -, -⟩, hpages, hcount, hserial⟩ := hservice
  dsimp only
  rw [← hstate, ← hstrap, ← hcapacity, ← hpages, ← hcount, ← hserial]

/-! ## The end of the mount (R142) -/

/-- The state with the volume engine IDLE and the flags of a mount's end set. -/
def State.withMountDone (s : State) (repaired : Bool) : State :=
  if repaired then ((s.setEngine .idle).setFlag .mountDone).setFlag .mountRepaired
  else (s.setEngine .idle).setFlag .mountDone

theorem withMountDone_eq (s : State) (repaired : Bool) : (s.withMountDone repaired).engine = .idle ∧
    (s.withMountDone repaired).service = s.service ∧ (s.withMountDone repaired).pageMap = s.pageMap ∧
    (s.withMountDone repaired).pins = s.pins := by
  cases repaired <;> exact ⟨rfl, rfl, rfl, rfl⟩

theorem withMountDone_hasFlag (s : State) (repaired : Bool) : (s.withMountDone repaired).hasFlag .mountDone = true ∧
    (repaired = true → (s.withMountDone repaired).hasFlag .mountRepaired = true) := by
  cases repaired
  · exact ⟨by simp [State.withMountDone], nofun⟩
  · exact ⟨by simp [State.withMountDone], fun _ => by simp [State.withMountDone]⟩

/-- The state in which the mount ends: the table taken, the engine IDLE and the flags set. -/
def State.mounted (s : State) (w : MountWork) : State :=
  (takeTable (mountTable w s.pageMap) s).withMountDone w.repaired

theorem mounted_eq (s : State) (w : MountWork) : (s.mounted w).engine = .idle ∧
    (s.mounted w).service = (takeTable (mountTable w s.pageMap) s).service ∧ (s.mounted w).pageMap = s.pageMap ∧
    (s.mounted w).pins = s.pins := by
  have hframe := takeTable_tableFrame (mountTable w s.pageMap) s
  obtain ⟨hengine, hservice, hmap, hpins⟩ := withMountDone_eq (takeTable (mountTable w s.pageMap) s) w.repaired
  exact ⟨hengine, hservice, hmap.trans hframe.pageMap, hpins.trans hframe.pins⟩

/-- What follows a mount's end (R142): service, or DRAINED with PFAIL asserted. -/
def State.enterService (s : State) : State :=
  if s.pins.pfail then assertLine (setReturn (some .active) (s.setService .drained)) else enterActive s

theorem endMount_of_mount {s : State} {w : MountWork} (h : s.engine = .mount w) :
    endMount s = releaseMountHold (s.mounted w).enterService := by
  unfold endMount
  rw [h]
  rfl

theorem enterService_eq (s : State) : s.enterService.engine = s.engine ∧ s.enterService.pageMap = s.pageMap ∧
    s.enterService.service = { s.service with state := if s.pins.pfail then .drained else .active } ∧
    (s.pins.pfail = true → s.enterService.drain.returnState = some .active ∧ s.enterService.drain.line = true) := by
  unfold State.enterService
  split
  case isTrue h =>
    rw [assertLine_eq]
    refine ⟨?_, ?_, ?_, fun _ => ⟨rfl, rfl⟩⟩ <;> split <;> rfl
  case isFalse h =>
    have hframe := enterActive_frame s
    exact ⟨hframe.engine, hframe.pageMap, hframe.service, fun hx => absurd hx h⟩

theorem enterService_hasFlag {s : State} {f : Flag} (h : s.hasFlag f = true) : s.enterService.hasFlag f = true := by
  unfold State.enterService
  split
  · exact assertLine_hasFlag _ _ h
  · exact enterActive_hasFlag _ _ h

theorem length_filter_mountTable (w : MountWork) (map : List (Nat × MapEntry)) :
    ((mountTable w map).filter fun p => p.2.state != .retired).length =
      ((w.a.found ++ w.b.found).filter fun r => r.cls != .retired).length := by
  have hclass : ∀ c : ScanClass, (c.blockState != .retired) = (c != .retired) := fun c => by cases c <;> rfl
  rw [mountTable, List.filter_map, List.length_map]
  exact congrArg List.length (List.filter_congr fun r _ => hclass r.cls)

theorem isEnded_of {p : MountPhase} (h : p = .ended ∨ p = .absent) : p.isEnded = true := by
  rcases h with rfl | rfl <;> rfl

/-- Settles O41: the table, the flags and the service state; the held cycle and the arbiter touch none of them. -/
theorem mountEndEntersService : Obligations.MountEndEntersService := by
  refine fun s => ⟨fun w hengine hvalid ha hb => ?_, fun hnot => congrArg Host.Outcome.next (if_neg (by simp [hnot]))⟩
  have hready : s.mountReady = true := by
    simp [State.mountReady, hengine, hvalid, isEnded_of (.inl ha), isEnded_of hb]
  obtain ⟨hidle, hservice, hmap, hpins⟩ := mounted_eq s w
  obtain ⟨hdone, hrepaired⟩ := withMountDone_hasFlag (takeTable (mountTable w s.pageMap) s) w.repaired
  obtain ⟨hengine', hmap', hservice', hdrain'⟩ := enterService_eq (s.mounted w)
  have hcore : (settle (endMount s)).core = (s.mounted w).enterService.core := by
    rw [endMount_of_mount hengine]
    exact (core_of_kept (settle_kept _)).trans (releaseMountHold_core _)
  have hflag : ∀ f, (s.mounted w).hasFlag f = true → (settle (endMount s)).hasFlag f = true := fun f hf => by
    rw [endMount_of_mount hengine]
    exact settle_hasFlag _ _ (releaseMountHold_hasFlag _ _ (enterService_hasFlag hf))
  have hfinal := service_of_core hcore
  have hstate := congrArg Service.state hfinal
  rw [hservice'] at hfinal hstate
  obtain ⟨-, hlatch⟩ := takeTable_service (mountTable w s.pageMap) s
  refine ⟨_, congrArg Host.Outcome.next (if_pos hready), (engine_of_core hcore).trans (hengine'.trans hidle),
    (pageMap_of_core hcore).trans (hmap'.trans hmap), sameArrays_of_stores (stores_of_base (by simp)), hflag _ hdone,
    fun h => hflag _ (hrepaired h), fun hpfail => ?active, fun hpfail => ?drained, ?capacity⟩
  case active => rw [hstate, hpins, hpfail]; rfl
  case drained =>
    rw [hstate, drain_of_core hcore, hpins, hpfail]
    exact ⟨rfl, hdrain' (by rw [hpins, hpfail])⟩
  case capacity =>
    rw [hfinal, ← length_filter_mountTable w s.pageMap]
    refine Iff.trans ?_ hlatch
    rw [← hservice]

end Sys2Proof.Machine
end

section
/-! PROOF. The format (R145 to R148): how its steps begin, and the writing of the volume record. -/

-- In order: as one text the package would start more threads than memory has stacks for.
set_option Elab.async false

namespace Sys2Proof.Machine

/-! ## Requests of the volume engine -/

/-- The volume engine notes its work and hands a request to a bank. -/
theorem handOver_setEngine (bk : BankId) (op : ReqOp) (s : State) (x : Engine) :
    (handOver bk .volume op (s.setEngine x)).engine = x ∧
      ((handOver bk .volume op (s.setEngine x)).bank bk).asks .volume op :=
  ⟨(handOver_oneBank bk .volume op (s.setEngine x)).frame.engine, handOver_asks bk op _ (by decide)⟩

theorem kickBank_asks (bk other : BankId) {s : State} {c : ReqClass} {op : ReqOp} (h : (s.bank bk).asks c op) :
    ((kickBank other s).bank bk).asks c op := h.of_sameSlot (kickBank_keeps other bk c s).1

/-! ## The volume record (R147, R148) -/

theorem writeRecordHalf_asks (half : Fin 256) (w : FormatWork) (s : State) :
    (writeRecordHalf half w s).engine = .format { w with stage := .record half } ∧
      ∃ q, (writeRecordHalf half w s).bankA.volume = some q ∧ q.op = .program { block := 0, slot := 0 } half
        (volumeHalf w.banks w.pages (nextSerial s.service.serial) half) := handOver_setEngine ..

theorem formatRecordDone_of_pass (w : FormatWork) (s : State) :
    formatRecordDone 1 true w s = writeRecordHalf 2 w s ∧ formatRecordDone 2 true w s = writeRecordHalf 3 w s ∧
      formatRecordDone 3 true w s = writeRecordHalf 0 w s ∧ formatRecordDone 0 true w s = completeFormat w s :=
  ⟨rfl, rfl, rfl, rfl⟩

/-- R148: the volume values are those of the record, the map is empty, and the part is in service. -/
theorem completeFormat_eq (w : FormatWork) (s : State) : (completeFormat w s).service.state = .active ∧
    (completeFormat w s).engine = .idle ∧ (completeFormat w s).service.pages = some w.pages ∧
    (completeFormat w s).service.bankCount = some (strapBanks w.banks) ∧
    (completeFormat w s).service.serial = some (nextSerial s.service.serial) ∧ (completeFormat w s).pageMap = [] ∧
    (completeFormat w s).hasFlag .formatDone = true := by
  unfold completeFormat
  dsimp only
  generalize sortByKey _ _ = table
  have hframe := takeTable_tableFrame table
    { setVolume w.pages (strapBanks w.banks) (setSerial (nextSerial s.service.serial) s) with pageMap := [] }
  obtain ⟨hservice, -⟩ := takeTable_service table
    { setVolume w.pages (strapBanks w.banks) (setSerial (nextSerial s.service.serial) s) with pageMap := [] }
  generalize takeTable table _ = u at hframe hservice
  have hactive := enterActive_frame (u.setEngine .idle)
  generalize enterActive (u.setEngine .idle) = t at hactive
  have hfinal : t.service = { u.service with state := .active } := hactive.service
  refine ⟨congrArg Service.state hfinal, hactive.engine, (congrArg Service.pages hfinal).trans ?_,
    (congrArg Service.bankCount hfinal).trans ?_, (congrArg Service.serial hfinal).trans ?_,
    hactive.pageMap.trans hframe.pageMap, by simp⟩ <;> rw [hservice] <;> rfl

/-- Settles O43. -/
theorem volumeRecordIsWrittenMarkLast : Obligations.VolumeRecordIsWrittenMarkLast := by
  intro s w
  obtain ⟨h1, h2, h3, h0⟩ := formatRecordDone_of_pass w s
  obtain ⟨hstate, hengine, hpages, hcount, hserial, hmap, hflag⟩ := completeFormat_eq w s
  refine ⟨fun half next hmem => ?halves, ?_⟩
  case halves =>
    simp only [List.mem_cons, Prod.mk.injEq, List.not_mem_nil, or_false] at hmem
    rcases hmem with ⟨rfl, rfl⟩ | ⟨rfl, rfl⟩ | ⟨rfl, rfl⟩
    · rw [h1]; exact writeRecordHalf_asks 2 w s
    · rw [h2]; exact writeRecordHalf_asks 3 w s
    · rw [h3]; exact writeRecordHalf_asks 0 w s
  rw [h0]
  refine ⟨hstate, hengine, hpages, hcount.trans ?_, hserial.trans rfl, hmap, hflag, fun _ => rfl⟩
  cases w.banks <;> rfl

/-! ## The begin of step 1 and of step 4 (R145, R147) -/

theorem dataBlocks_a (strap : Strap) : dataBlocks strap .a = 1 :: (dataBlocks strap .a).tail := by
  cases strap <;> decide

theorem dataBlocks_two_b : dataBlocks .two .b = 64 :: (dataBlocks .two .b).tail := by decide

/-- The first data block of a fitted bank: A1 or B0 (R2). -/
def firstDataBlock : BankId → BlockRef
  | .a => 1
  | .b => 64

theorem dataBlocks_eq {strap : Strap} {bk : BankId} (h : strap = .two ∨ bk = .a) :
    dataBlocks strap bk = firstDataBlock bk :: (dataBlocks strap bk).tail := by
  cases bk
  case a => exact dataBlocks_a strap
  case b =>
    obtain rfl := h.resolve_right nofun
    exact dataBlocks_two_b

theorem startFormatBank_of_cons {s : State} {w : FormatWork} {bk : BankId} {b : BlockRef} {rest : List BlockRef}
    (h : s.engine = .format w) (hblocks : dataBlocks w.banks bk = b :: rest) : startFormatBank bk s =
      handOver bk .volume (.readDescriptor b)
        (s.setEngine (.format (w.setBank bk { w.bank bk with phase := .reading (b :: rest) }))) := by
  simp only [startFormatBank, h, hblocks]

theorem formatWork_bank_setBank (w : FormatWork) (bk : BankId) (x : FormatBank) : (w.setBank bk x).bank bk = x := by
  cases bk <;> rfl

theorem startRecord_of_format {s : State} {w : FormatWork} (h : s.engine = .format w) :
    startRecord s = writeRecordHalf 1 w s := by
  simp only [startRecord, h]

theorem isFinished_of {p : FormatPhase} (h : p = .finished ∨ p = .absent) : p.isFinished = true := by
  rcases h with rfl | rfl <;> rfl

/-- Settles O42: the conditions are those of the two commands, and each hands over its first request. -/
theorem formatStepsBegin : Obligations.FormatStepsBegin := by
  refine fun s => ⟨fun w bk hengine habandoned hphase hfitted herase hslot hvolume => ?bank,
    fun bk hnot => congrArg Host.Outcome.next (if_neg (by simp [hnot])),
    fun w hengine habandoned hstage ha hb => ?record,
    fun hnot => congrArg Host.Outcome.next (if_neg (by simp [hnot]))⟩
  case bank =>
    have hready : s.formatStartReady bk = true := by
      simp [State.formatStartReady, hengine, habandoned, hphase, herase, hslot, hvolume]
    have hblocks := dataBlocks_eq hfitted
    obtain ⟨hwork, hasks⟩ := handOver_setEngine bk (.readDescriptor (firstDataBlock bk)) s
      (.format (w.setBank bk { w.bank bk with phase := .reading (firstDataBlock bk :: (dataBlocks w.banks bk).tail) }))
    rw [← startFormatBank_of_cons hengine hblocks] at hwork hasks
    refine ⟨_, _, congrArg Host.Outcome.next (if_pos hready), (kickBank_oneBank ..).frame.engine.trans hwork, ?_,
      sameArrays_of_stores (stores_of_base (by simp)), ?_⟩
    · rw [formatWork_bank_setBank]
      exact congrArg FormatPhase.reading hblocks.symm
    · obtain ⟨q, hq, hop⟩ := kickBank_asks bk bk hasks
      exact ⟨q, hq, hop.trans (by cases bk <;> rfl)⟩
  case record =>
    have hready : s.recordReady = true := by
      simp [State.recordReady, hengine, habandoned, hstage, isFinished_of (.inl ha), isFinished_of hb]
    obtain ⟨hwork, hasks⟩ := writeRecordHalf_asks 1 w s
    rw [← startRecord_of_format hengine] at hwork hasks
    refine ⟨_, congrArg Host.Outcome.next (if_pos hready), (kickBank_oneBank ..).frame.engine.trans hwork,
      sameArrays_of_stores (stores_of_base (by simp)), ?_⟩
    obtain ⟨q, hq, hop⟩ := kickBank_asks (c := .volume) .a .a hasks
    exact ⟨q, hq, hop.trans (by cases w.banks <;> rfl)⟩

end Sys2Proof.Machine
end

section
/-! PROOF. The mount (R136, R139, R140): the volume record that decides it, and the choice of the candidates with the
repairs that follow. -/

-- In order: as one text the package would start more threads than memory has stacks for.
set_option Elab.async false

namespace Sys2Proof.Machine

/-! ## The record -/

theorem readable_iff (bytes : List Byte) :
    (volumeAt bytes).readable = true ↔ halfAt bytes 0 = 0x4C57#16 ∧ byteAt bytes 2 = 1#8 := by
  simp [VolumeRecord.readable, volumeAt, Config.formatMark]

/-- R136: valid under a strap. -/
theorem valid_iff (bytes : List Byte) (strap : Strap) : (volumeAt bytes).valid strap = true ↔
    (halfAt bytes 0 = 0x4C57#16 ∧ byteAt bytes 2 = 1#8) ∧
      (strap = .two ∧ byteAt bytes 3 = 2#8 ∧ 256 ≤ (halfAt bytes 4).toNat ∧ (halfAt bytes 4).toNat ≤ 15621 ∨
       strap = .one ∧ byteAt bytes 3 = 1#8 ∧ 256 ≤ (halfAt bytes 4).toNat ∧ (halfAt bytes 4).toNat ≤ 7493) := by
  rw [VolumeRecord.valid, Bool.and_eq_true, Bool.and_eq_true, readable_iff, and_assoc, strapAdmits_iff]
  refine and_congr_right fun _ => ?_
  cases strap <;> simp [volumeAt, strapBanks, ← BitVec.toNat_inj]

/-! ## The record's slot is read (R136, R137) -/

theorem endAction_sameSlot (bk other : BankId) (c : ReqClass) (s : State) :
    BankCtl.sameSlot c (s.bank other) ((endAction bk s).bank other) := by
  by_cases h : other = bk
  · subst h
    rw [endAction, setBank_bank]
    cases c <;> rfl
  · rw [endAction, setBank_bank_ne _ _ h]
    rfl

/-- The report of an array read to the volume engine (R100). -/
theorem exec_arrayReadDone_volume {s : State} {bk : BankId} {slot x : SlotRef} {o len : Nat} {q : Request}
    (answer : ReadAnswer) (hactive : (s.bank bk).active = some { cls := .volume, act := .read slot o len })
    (hq : (s.bank bk).volume = some q) (hop : q.op = .readSlot x) :
    exec (.arrayReadDone bk answer) s = .next (kickBanks (endAction bk
      (volumeReadDone bk (answerBytes answer (s.flash bk) slot o len) (emptySlot bk .volume s)))) := by
  have hslot : (s.bank bk).slot .volume = some q := hq
  simp only [exec, execArrayReadDone, hactive, finishRead, hslot, hop]
  rfl

/-- The state in which the record's fields are set (R131, R136). -/
def State.withRecord (s : State) (bytes : List Byte) : State :=
  setVolume (volumeAt bytes).pages (volumeAt bytes).banks.toNat
    (if (volumeAt bytes).readable then setSerial (volumeAt bytes).serial s else s)

theorem withRecord_eq (s : State) (bytes : List Byte) : s.withRecord bytes = { s with service := { s.service with
    pages := some (halfAt bytes 4).toNat, bankCount := some (byteAt bytes 3).toNat
    serial := if (volumeAt bytes).readable then some (halfAt bytes 6) else s.service.serial } } := by
  unfold State.withRecord
  split <;> rfl

theorem startScan_a (w : MountWork) (s : State) : EngineFrame s (startScan .a w s) ∧
    (startScan .a w s).engine = .mount (w.setPhase .a (.scanning (dataBlocks s.service.strap .a))) ∧
    (startScan .a w s).bankA.asks .volume (.readSlot { block := 1, slot := 0 }) := by
  have hblocks := dataBlocks_a s.service.strap
  obtain ⟨hengine, hasks⟩ := handOver_setEngine .a (.readSlot (headerOf 1)) s
    (.mount (w.setPhase .a (.scanning (1 :: (dataBlocks s.service.strap .a).tail))))
  rw [startScan_of_cons hblocks, hblocks]
  exact ⟨handOver_setEngine_frame .., hengine, hasks⟩

/-- The scan of bank B begins beside that of bank A, and touches neither its work nor its requests. -/
theorem startScan_b {w : MountWork} {s : State} {op : ReqOp} (hasks : s.bankA.asks .volume op) :
    EngineFrame s (startScan .b w s) ∧
    (∃ w', (startScan .b w s).engine = .mount w' ∧ w'.a = w.a ∧ w'.valid = w.valid) ∧
    (startScan .b w s).bankA.asks .volume op := by
  refine ⟨startScan_frame .., ?_⟩
  unfold startScan
  split
  · exact ⟨⟨_, rfl, rfl, rfl⟩, hasks⟩
  · obtain ⟨hengine, -⟩ := handOver_setEngine .b (.readSlot (headerOf _)) s _
    exact ⟨⟨_, hengine, rfl, rfl⟩, hasks⟩

theorem mountRecordRead_of_valid {bytes : List Byte} {w : MountWork} {s : State}
    (h : (volumeAt bytes).valid s.service.strap = true) :
    EngineFrame (s.withRecord bytes) (mountRecordRead bytes w s) ∧
    (∃ w', (mountRecordRead bytes w s).engine = .mount w' ∧ w'.valid = true ∧
      w'.a.phase = .scanning (dataBlocks s.service.strap .a)) ∧
    (mountRecordRead bytes w s).bankA.asks .volume (.readSlot { block := 1, slot := 0 }) := by
  let w1 : MountWork := { w with valid := true }
  have hstrap : (s.withRecord bytes).service.strap = s.service.strap := by rw [withRecord_eq]
  obtain ⟨hframe, hengine, hasks⟩ := startScan_a w1 (s.withRecord bytes)
  rw [hstrap] at hengine
  have hread : mountRecordRead bytes w s =
      match w1.b.phase, (startScan .a w1 (s.withRecord bytes)).engine with
      | .waiting, .mount w2 => startScan .b w2 (startScan .a w1 (s.withRecord bytes))
      | _, _ => startScan .a w1 (s.withRecord bytes) := by
    simp only [mountRecordRead, h, if_true]
    rfl
  rw [hread, hengine]
  split
  case h_1 w2 _ heq =>
    obtain rfl := Engine.mount.inj heq
    obtain ⟨hframeB, ⟨w', hw', ha, hvalid⟩, hasksB⟩ :=
      startScan_b (w := w1.setPhase .a (.scanning (dataBlocks s.service.strap .a))) hasks
    exact ⟨hframe.trans hframeB, ⟨w', hw', hvalid, congrArg MountBank.phase ha⟩, hasksB⟩
  case h_2 => exact ⟨hframe, ⟨_, hengine, rfl, rfl⟩, hasks⟩

theorem mountRecordRead_of_not_valid {bytes : List Byte} {w : MountWork} {s : State}
    (h : (volumeAt bytes).valid s.service.strap = false) : mountRecordRead bytes w s =
      endUnformatted (if (volumeAt bytes).readable then setSerial (volumeAt bytes).serial s else s) := by
  simp only [mountRecordRead, h, Bool.false_eq_true, if_false]

theorem endUnformatted_core (s : State) : (endUnformatted s).core =
    ((s.setEngine .idle).setService .unformatted).core := (releaseMountHold_core _).trans rfl

theorem endUnformatted_hasFlag (s : State) :
    (endUnformatted s).hasFlag .unformatted = true ∧ (endUnformatted s).hasFlag .mountDone = true :=
  ⟨releaseMountHold_hasFlag _ _ (by simp), releaseMountHold_hasFlag _ _ (by simp)⟩

theorem mgmt_hasFlag {s t : State} (h : t.mgmt = s.mgmt) (f : Flag) : t.hasFlag f = s.hasFlag f := by
  rw [State.hasFlag, h]; rfl

/-- What the report of the record's slot leads to: `mountRecordRead`, but for the banks. -/
theorem exec_recordRead {s : State} {w : MountWork} {q : Request} {slot : SlotRef} (answer : ReadAnswer)
    (hengine : s.engine = .mount w) (hphase : w.a.phase = .record) (hq : s.bankA.volume = some q)
    (hop : q.op = .readSlot { block := 0, slot := 0 })
    (hactive : s.bankA.active = some { cls := .volume, act := .read slot 0 512 }) :
    ∃ t, exec (.arrayReadDone .a answer) s = .next t ∧
      BankFrame (mountRecordRead (answerBytes answer s.flashA slot 0 512) w (emptySlot .a .volume s)) t ∧
      ∀ op, (mountRecordRead (answerBytes answer s.flashA slot 0 512) w (emptySlot .a .volume s)).bankA.asks .volume op →
        t.bankA.asks .volume op := by
  have hreport : volumeReadDone .a (answerBytes answer s.flashA slot 0 512) (emptySlot .a .volume s) =
      mountRecordRead (answerBytes answer s.flashA slot 0 512) w (emptySlot .a .volume s) := by
    have hwork : (emptySlot .a .volume s).engine = .mount w := hengine
    have hphase' : (w.bank .a).phase = .record := hphase
    simp only [volumeReadDone, hwork, hphase']
  refine ⟨_, exec_arrayReadDone_volume answer (bk := .a) hactive hq hop, ?_, fun op hasks => ?_⟩
  · refine BankFrame.trans ?_ (kickBanks_frame _)
    rw [← hreport]
    exact endAction_frame ..
  · rw [← hreport] at hasks
    exact kickBanks_asks (bk := .a) (BankCtl.asks.of_sameSlot hasks (endAction_sameSlot .a .a .volume _))

/-- Settles O39: the two ends of `mountRecordRead`. -/
theorem volumeRecordDecidesTheMount : Obligations.VolumeRecordDecidesTheMount := by
  intro s w q answer slot hengine hphase hq hop hactive bytes pages readable valid
  obtain ⟨t, hexec, hframe, hasks⟩ := exec_recordRead answer hengine hphase hq hop hactive
  have hu : BankFrame s (emptySlot .a .volume s) := (setBank_oneBank s .a _).frame
  generalize emptySlot .a .volume s = u at hframe hasks hu
  change BankFrame (mountRecordRead bytes w u) t at hframe
  change ∀ op, (mountRecordRead bytes w u).bankA.asks .volume op → _ at hasks
  have hreadable : (volumeAt bytes).readable = true ↔ readable := readable_iff bytes
  have hvalid : (volumeAt bytes).valid u.service.strap = true ↔ valid := by
    rw [hu.service]; exact valid_iff bytes s.service.strap
  refine ⟨t, hexec, ?_⟩
  by_cases hv : (volumeAt bytes).valid u.service.strap = true
  case pos =>
    obtain ⟨hrecord, ⟨w', hw', hvalid', hphase'⟩, hread⟩ := mountRecordRead_of_valid (w := w) hv
    have hservice : t.service = { s.service with
        pages := some pages, bankCount := some (byteAt bytes 3).toNat
        serial := if (volumeAt bytes).readable then some (halfAt bytes 6) else s.service.serial } := by
      rw [hframe.service, hrecord.service, withRecord_eq, hu.service]
    have hmap : t.pageMap = s.pageMap := by rw [hframe.pageMap, hrecord.pageMap, withRecord_eq, hu.pageMap]
    rw [hservice]
    refine ⟨hmap, fun h => if_pos (hreadable.mpr h), fun h => if_neg fun hx => h (hreadable.mp hx),
      fun _ => ⟨rfl, rfl, rfl, ⟨w', hframe.engine.trans hw', hvalid', ?_⟩, hasks _ hread⟩, fun h => absurd (hvalid.mp hv) h⟩
    rw [hphase', hu.service]
  case neg =>
    rw [mountRecordRead_of_not_valid (Bool.not_eq_true _ ▸ hv)] at hframe
    have hx : (if (volumeAt bytes).readable then setSerial (volumeAt bytes).serial u else u) = { u with
        service := { u.service with
          serial := if (volumeAt bytes).readable then some (halfAt bytes 6) else u.service.serial } } := by
      split <;> rfl
    generalize (if (volumeAt bytes).readable then setSerial (volumeAt bytes).serial u else u) = x at hframe hx
    have hcore := endUnformatted_core x
    obtain ⟨hunformatted, hdone⟩ := endUnformatted_hasFlag x
    have hservice := hframe.service.trans (service_of_core hcore)
    have hxserial : x.service.serial = if (volumeAt bytes).readable then some (halfAt bytes 6) else u.service.serial := by
      rw [hx]
    have hxpages : x.service.pages = u.service.pages := by rw [hx]
    have hxmap : x.pageMap = u.pageMap := by rw [hx]
    have hserial : t.service.serial = if (volumeAt bytes).readable then some (halfAt bytes 6) else s.service.serial := by
      rw [← hu.service]
      exact (congrArg Service.serial hservice).trans hxserial
    have hpages : t.service.pages = s.service.pages := by
      rw [← hu.service]
      exact (congrArg Service.pages hservice).trans hxpages
    have hmap : t.pageMap = s.pageMap := by
      rw [← hu.pageMap]
      exact (hframe.pageMap.trans (pageMap_of_core hcore)).trans hxmap
    rw [hserial]
    exact ⟨hmap, fun h => if_pos (hreadable.mpr h), fun h => if_neg fun hx => h (hreadable.mp hx),
      fun h => absurd (hvalid.mpr h) hv, fun _ => ⟨congrArg Service.state hservice, hpages,
        hframe.engine.trans (engine_of_core hcore), (mgmt_hasFlag hframe.mgmt _).trans hunformatted,
        (mgmt_hasFlag hframe.mgmt _).trans hdone⟩⟩

/-! ## The candidate choice (R139, R140) -/

/-- The repairs of a bank, in scan order (R140). -/
def repairsOf (slots : List SlotRef) (bk : BankId) : List SlotRef :=
  sortByKey SlotRef.scanKey (slots.filter fun x => x.bank == bk)

theorem startRepairs_of_absent {s : State} {w : MountWork} {bk : BankId} (slots : List SlotRef)
    (h : s.engine = .mount w) (hphase : (w.bank bk).phase = .absent) : startRepairs bk slots s = s := by
  simp only [startRepairs, h, hphase, if_true]

theorem startRepairs_of_fitted {s : State} {w : MountWork} {bk : BankId} (slots : List SlotRef)
    (h : s.engine = .mount w) (hphase : (w.bank bk).phase ≠ .absent) :
    (startRepairs bk slots s).engine = .mount (w.setPhase bk
      (if repairsOf slots bk = [] then .ended else .repairing (repairsOf slots bk))) ∧
    (∀ x rest, repairsOf slots bk = x :: rest → ((startRepairs bk slots s).bank bk).asks .volume (.mark x codeStale)) ∧
    ∀ other, other ≠ bk → (startRepairs bk slots s).bank other = s.bank other := by
  cases hlist : repairsOf slots bk with
  | nil =>
    have heq : startRepairs bk slots s = s.setEngine (.mount (w.setPhase bk .ended)) := by
      simp only [startRepairs, h, hphase, if_false]
      rw [← repairsOf, hlist]
    rw [heq]
    exact ⟨rfl, nofun, fun _ _ => rfl⟩
  | cons x rest =>
    have heq : startRepairs bk slots s = handOver bk .volume (.mark x codeStale)
        (s.setEngine (.mount (w.setPhase bk (.repairing (x :: rest))))) := by
      simp only [startRepairs, h, hphase, if_false]
      rw [← repairsOf, hlist]
    obtain ⟨hengine, hasks⟩ := handOver_setEngine bk (.mark x codeStale) s
      (.mount (w.setPhase bk (.repairing (x :: rest))))
    rw [heq]
    refine ⟨hengine, fun y l hy => ?_, fun other hne => (handOver_oneBank ..).bank_ne hne⟩
    obtain ⟨rfl, rfl⟩ := List.cons.inj hy
    exact hasks

/-- The state in which the repairs begin: the choice is the page map (R139). -/
def State.chosen (s : State) (w : MountWork) : State :=
  { s with
    pageMap := (chooseCandidates (w.a.candidates ++ w.b.candidates)).1
    engine := .mount { w with repaired :=
      !((chooseCandidates (w.a.candidates ++ w.b.candidates)).2 ++ w.a.bad ++ w.b.bad).isEmpty } }

theorem chooseMount_of_mount {s : State} {w : MountWork} (h : s.engine = .mount w) : chooseMount s =
    startRepairs .b ((chooseCandidates (w.a.candidates ++ w.b.candidates)).2 ++ w.a.bad ++ w.b.bad)
      (startRepairs .a ((chooseCandidates (w.a.candidates ++ w.b.candidates)).2 ++ w.a.bad ++ w.b.bad) (s.chosen w)) := by
  unfold chooseMount
  rw [h]
  rfl

theorem isScanned_of {p : MountPhase} (h : p = .scanned ∨ p = .absent) : p.isScanned = true := by
  rcases h with rfl | rfl <;> rfl

/-- R140: the repairs that the choice begins on the two banks. -/
theorem chooseMount_repairs {s : State} {w : MountWork} {slots : List SlotRef} (h : s.engine = .mount w)
    (hslots : slots = (chooseCandidates (w.a.candidates ++ w.b.candidates)).2 ++ w.a.bad ++ w.b.bad)
    (ha : w.a.phase = .scanned) :
    EngineFrame (s.chosen w) (chooseMount s) ∧
    (∃ w', (chooseMount s).engine = .mount w' ∧
      w'.a.phase = (if repairsOf slots .a = [] then .ended else .repairing (repairsOf slots .a)) ∧
      w'.b.phase = if w.b.phase = .absent then .absent
        else if repairsOf slots .b = [] then .ended else .repairing (repairsOf slots .b)) ∧
    (∀ x rest, repairsOf slots .a = x :: rest → (chooseMount s).bankA.asks .volume (.mark x codeStale)) ∧
    (∀ x rest, w.b.phase ≠ .absent → repairsOf slots .b = x :: rest →
      (chooseMount s).bankB.asks .volume (.mark x codeStale)) := by
  rw [chooseMount_of_mount h, ← hslots]
  have hfitted : w.a.phase ≠ .absent := by rw [ha]; nofun
  obtain ⟨hengineA, hasksA, -⟩ := startRepairs_of_fitted (s := s.chosen w) (bk := .a) slots rfl hfitted
  have hframeA := startRepairs_frame .a slots (s.chosen w)
  by_cases hb : w.b.phase = .absent
  · rw [startRepairs_of_absent (bk := .b) slots hengineA hb]
    refine ⟨hframeA, ⟨_, hengineA, rfl, ?_⟩, hasksA, fun _ _ hne => absurd hb hne⟩
    rw [if_pos hb]
    exact hb
  · obtain ⟨hengineB, hasksB, hbank⟩ := startRepairs_of_fitted (bk := .b) slots hengineA hb
    refine ⟨hframeA.trans (startRepairs_frame ..), ⟨_, hengineB, rfl, ?_⟩, fun x rest hx => ?_, fun x rest _ hx =>
      hasksB x rest hx⟩
    · rw [if_neg hb]
      rfl
    · have hsame : (startRepairs .b slots (startRepairs .a slots (s.chosen w))).bankA =
          (startRepairs .a slots (s.chosen w)).bankA := hbank .a (by decide)
      rw [hsame]
      exact hasksA x rest hx

/-- Settles O40: the choice is a fold over the candidates, and the repairs begin on each fitted bank. -/
theorem mountChoosesTheNewestCandidates : Obligations.MountChoosesTheNewestCandidates := by
  refine ⟨assocGet_chooseCandidates, fun s w hengine hvalid ha hb => ?_,
    fun s hnot => congrArg Host.Outcome.next (if_neg (by simp [hnot]))⟩
  intro choice repairs
  have hready : s.choiceReady = true := by
    simp [State.choiceReady, hengine, hvalid, isScanned_of (.inl ha), isScanned_of hb]
  obtain ⟨hframe, ⟨w', hw', hphaseA, hphaseB⟩, hasksA, hasksB⟩ := chooseMount_repairs hengine rfl ha
  refine ⟨_, w', congrArg Host.Outcome.next (if_pos hready), (kickBanks_frame _).pageMap.trans hframe.pageMap,
    (kickBanks_frame _).engine.trans hw', hphaseA, hphaseB, fun x rest hx => kickBanks_asks (bk := .a) (hasksA x rest hx),
    fun x rest hscanned hx => kickBanks_asks (bk := .b) (hasksB x rest (by simp [hscanned]) hx),
    sameArrays_of_stores (stores_of_base (by simp))⟩

end Sys2Proof.Machine
end

section
/-! SUPPORT. What the page mover and the block manager leave in the bank controllers, and what the reports of programs
leave in the counters PROGRAM FAILURES and ERASES. -/

-- In order: as one text the package would start more threads than memory has stacks for.
set_option Elab.async false

namespace Sys2Proof.Machine

/-! ## Bank controllers but for their erase slots -/

/-- A bank controller with no regard to its erase slot. -/
def BankCtl.besideErase (k : BankCtl) : BankCtl := { k with erase := none }

/-- A bank controller with no regard to what the page mover and the block manager ask of it. -/
def BankCtl.besideMover (k : BankCtl) : BankCtl := { k with mover := none, erase := none, handOvers := 0 }

/-- The bank controllers with no regard to their erase slots. -/
def State.besideErases (s : State) : BankCtl × BankCtl := (s.bankA.besideErase, s.bankB.besideErase)

/-- The bank controllers with no regard to what the page mover and the block manager ask of them. -/
def State.besideMover (s : State) : BankCtl × BankCtl := (s.bankA.besideMover, s.bankB.besideMover)

theorem besideMover_besideErase (k : BankCtl) : k.besideErase.besideMover = k.besideMover := rfl

theorem besideMover_of_besideErases {s t : State} (h : t.besideErases = s.besideErases) :
    t.besideMover = s.besideMover := by
  obtain ⟨hA, hB⟩ := Prod.mk.inj h
  rw [State.besideMover, ← besideMover_besideErase, ← besideMover_besideErase t.bankB, hA, hB]
  rfl

theorem besideMover_of_banks {s t : State} (hA : t.bankA = s.bankA) (hB : t.bankB = s.bankB) :
    t.besideMover = s.besideMover := by
  rw [State.besideMover, hA, hB]; rfl

theorem slot_besideErase (k : BankCtl) (c : ReqClass) : k.besideErase.slot c = k.slot c := by
  cases c <;> rfl

theorem slot_of_besideErases {s t : State} (h : t.besideErases = s.besideErases) (bk : BankId) (c : ReqClass) :
    (t.bank bk).slot c = (s.bank bk).slot c := by
  have hbank : (t.bank bk).besideErase = (s.bank bk).besideErase := by
    obtain ⟨hA, hB⟩ := Prod.mk.inj h
    cases bk
    · exact hA
    · exact hB
  rw [← slot_besideErase, hbank, slot_besideErase]

theorem bank_of_besideMover {s t : State} (h : t.besideMover = s.besideMover) (bk : BankId) :
    (t.bank bk).besideMover = (s.bank bk).besideMover := by
  obtain ⟨hA, hB⟩ := Prod.mk.inj h
  cases bk
  · exact hA
  · exact hB

theorem slot_besideMover (k : BankCtl) {c : ReqClass} (hc : c ≠ .mover) : k.besideMover.slot c = k.slot c := by
  cases c
  case mover => exact absurd rfl hc
  all_goals rfl

theorem slot_of_besideMover {s t : State} (h : t.besideMover = s.besideMover) (bk : BankId) {c : ReqClass}
    (hc : c ≠ .mover) : (t.bank bk).slot c = (s.bank bk).slot c := by
  rw [← slot_besideMover _ hc, bank_of_besideMover h bk, slot_besideMover _ hc]

@[simp] theorem modifyRecord_besideErases (s : State) (b : BlockRef) (f : BlockRecord → BlockRecord) :
    (s.modifyRecord b f).besideErases = s.besideErases := rfl

@[simp] theorem blocks_besideErases (s : State) (x : BlockManager) :
    ({ s with blocks := x } : State).besideErases = s.besideErases := rfl

@[simp] theorem handErase_besideErases (s : State) (r : EraseRequest) :
    (handErase r s).besideErases = s.besideErases := by
  simp only [handErase]
  cases BlockRef.bank r.block <;> rfl

@[simp] theorem serveBank_besideErases (s : State) (bk : BankId) : (serveBank bk s).besideErases = s.besideErases := by
  simp only [serveBank]
  split
  case isTrue => rfl
  case isFalse =>
    split
    · rw [handErase_besideErases]; rfl
    · rfl

@[simp] theorem serveErases_besideErases (s : State) : (serveErases s).besideErases = s.besideErases := by
  simp [serveErases]

@[simp] theorem joinErase_besideErases (s : State) (b : BlockRef) : (joinErase b s).besideErases = s.besideErases := by
  simp [joinErase]

@[simp] theorem evaluateTriggers_besideErases (s : State) :
    (evaluateTriggers s).besideErases = s.besideErases := by
  unfold evaluateTriggers
  split
  case isTrue => split <;> rfl
  case isFalse => rfl

@[simp] theorem finishVictim_besideErases (s : State) : (finishVictim s).besideErases = s.besideErases := by
  unfold finishVictim
  split <;> simp

@[simp] theorem livePlus_besideErases (s : State) (b : BlockRef) : (livePlus b s).besideErases = s.besideErases := by
  simp only [livePlus]
  split <;> rfl

@[simp] theorem liveMinus_besideErases (s : State) (b : BlockRef) (fromCommit : Bool) :
    (liveMinus b fromCommit s).besideErases = s.besideErases := by
  simp only [liveMinus]
  split
  · split
    · split
      · simp
      · split <;> simp
    · simp
  · simp

@[simp] theorem takeSlot_besideErases (s : State) (b : BlockRef) (n : Nat) :
    (takeSlot b n s).besideErases = s.besideErases := by
  simp only [takeSlot]
  split <;> simp

/-! ## What the page mover asks -/

@[simp] theorem handOver_mover_besideMover (s : State) (bk : BankId) (op : ReqOp) :
    (handOver bk .mover op s).besideMover = s.besideMover := by
  cases bk <;> rfl

@[simp] theorem moverAsks_besideMover (s : State) (r : OpRecord) (p : Phase) (bk : BankId) (op : ReqOp) :
    (moverAsks r p bk op s).besideMover = s.besideMover := (handOver_mover_besideMover ..).trans rfl

theorem takeBlock_besideMover (s : State) (b : BlockRef) (r : BlockRecord) :
    (takeBlock b r s).besideMover = s.besideMover :=
  (handOver_mover_besideMover ..).trans (besideMover_of_besideErases (evaluateTriggers_besideErases _))

theorem slotRequest_besideMover (s : State) (q : Requester) : (slotRequest q s).2.besideMover = s.besideMover := by
  unfold slotRequest
  split
  · exact besideMover_of_besideErases (takeSlot_besideErases ..)
  · split
    · split
      · exact takeBlock_besideMover ..
      · rfl
    · rfl

theorem completeCycle_besideMover (fault : Bool) (data : Option HalfWord) (s : State) :
    (completeCycle fault data s).besideMover = s.besideMover := by
  unfold completeCycle
  split <;> rfl

theorem closeEntry_besideMover (i : Fin 8) (s : State) : (closeEntry i s).besideMover = s.besideMover := by
  rw [closeEntry_frame i s]; rfl

theorem mergeWrite_besideMover (i : Fin 8) (o : Nat) (lower upper : Bool) (data : HalfWord) (s : State) :
    (mergeWrite i o lower upper data s).besideMover = s.besideMover := by
  simp only [mergeWrite]
  split
  · exact (closeEntry_besideMover ..).trans ((completeCycle_besideMover ..).trans rfl)
  · exact (completeCycle_besideMover ..).trans rfl

theorem retryHeld_besideMover (s : State) : (retryHeld s).besideMover = s.besideMover := by
  unfold retryHeld
  split
  · unfold absorbWrite
    dsimp only
    split
    · exact mergeWrite_besideMover ..
    · split
      · exact (mergeWrite_besideMover ..).trans rfl
      · rfl
  · rfl

theorem endCommit_besideMover (i : Fin 8) (c : Counter) (s : State) :
    (endCommit i c s).besideMover = s.besideMover := by
  have hrelease : (releaseEntry i (s.bump c)).besideMover = s.besideMover := by
    simp only [releaseEntry]
    refine (retryHeld_besideMover _).trans ?_
    split <;> rfl
  exact hrelease

theorem addCause_besideMover (c : Cause) (s : State) : (addCause c s).besideMover = s.besideMover :=
  besideMover_of_banks (addCause_tableFrame c s).bankA (addCause_tableFrame c s).bankB

theorem stickCommit_besideMover (i : Fin 8) (s : State) : (stickCommit i s).besideMover = s.besideMover :=
  addCause_besideMover .commitStuck _

theorem noSlot_besideMover (r : OpRecord) (s : State) : (noSlot r s).besideMover = s.besideMover := by
  unfold noSlot
  split
  · split
    · rfl
    · exact stickCommit_besideMover ..
  · exact addCause_besideMover .reclaimHalted s

theorem seekSlot_besideMover (r : OpRecord) (s : State) : (seekSlot r s).besideMover = s.besideMover := by
  have hrequest := slotRequest_besideMover s r.requester
  unfold seekSlot
  split
  case h_1 n u hanswer => rw [hanswer] at hrequest; exact (moverAsks_besideMover ..).trans hrequest
  case h_2 u hanswer => rw [hanswer] at hrequest; exact hrequest
  case h_3 u hanswer => rw [hanswer] at hrequest; exact (noSlot_besideMover ..).trans hrequest

theorem writeInPlace_besideMover (r : OpRecord) (i : Fin 8) (src : SlotRef) (h : Nat) (s : State) :
    (writeInPlace r i src h s).besideMover = s.besideMover := by
  unfold writeInPlace
  split
  · exact moverAsks_besideMover ..
  · exact endCommit_besideMover ..

theorem decideCommit_besideMover (r : OpRecord) (i : Fin 8) (s : State) :
    (decideCommit r i s).besideMover = s.besideMover := by
  unfold decideCommit
  split
  · exact endCommit_besideMover ..
  · split
    · exact writeInPlace_besideMover ..
    · exact seekSlot_besideMover ..

theorem startCommit_besideMover (i : Fin 8) (s : State) : (startCommit i s).besideMover = s.besideMover := by
  simp only [startCommit]
  split
  · exact (moverAsks_besideMover ..).trans rfl
  · exact (decideCommit_besideMover ..).trans rfl

theorem scanNext_besideMover (s : State) : (scanNext s).besideMover = s.besideMover := by
  unfold scanNext
  split
  · split
    · exact (handOver_mover_besideMover ..).trans rfl
    · exact besideMover_of_besideErases ((finishVictim_besideErases _).trans rfl)
  · rfl

theorem grantOnce_besideMover (s : State) : (grantOnce s).besideMover = s.besideMover := by
  unfold grantOnce
  split
  · split
    · exact (startCommit_besideMover ..).trans rfl
    · exact (scanNext_besideMover ..).trans rfl
    · rfl
  · rfl

/-- R50, R97: the arbiter's grants reach the banks through the mover and erase slots alone. -/
theorem arbitrate_besideMover (n : Nat) (s : State) : (arbitrate n s).besideMover = s.besideMover := by
  induction n generalizing s with
  | zero => rfl
  | succ n ih =>
    unfold arbitrate
    split
    · exact (ih _).trans (grantOnce_besideMover s)
    · rfl

/-- A request beside the mover's stays in its slot when the arbiter grants and the banks choose. -/
theorem settle_sameSlot (bk : BankId) {c : ReqClass} (s : State) (h : c = .mover → s.moverIdle = false) :
    BankCtl.sameSlot c (s.bank bk) ((settle s).bank bk) := by
  by_cases hc : c = .mover
  · rw [settle_of_busy (h hc)]
    exact (kickBanks_keeps bk c s).1
  · refine sameSlot_trans (sameSlot_of_eq (slot_of_besideMover (arbitrate_besideMover 32 s) bk hc)) ?_
    exact (kickBanks_keeps bk c _).1

end Sys2Proof.Machine
end

section
/-! SUPPORT. The counters PROGRAM FAILURES and ERASES count at the flash's answers alone (R179): the reports that follow
an answer leave them. -/

-- In order: as one text the package would start more threads than memory has stacks for.
set_option Elab.async false

namespace Sys2Proof.Machine

/-- The counters that the flash's answers move. -/
def State.tally (s : State) : BitVec 32 × BitVec 32 := (s.counter .programFailures, s.counter .erases)

theorem tally_of_mgmt {s t : State} (h : t.mgmt = s.mgmt) : t.tally = s.tally := by
  rw [State.tally, State.counter, State.counter, h]; rfl

theorem tally_of_kept {s t : State} (h : t.kept = s.kept) : t.tally = s.tally := by
  have hcounts := congrArg Kept.counts h
  simp only [State.kept, List.cons.injEq] at hcounts
  obtain ⟨-, -, -, herases, -, -, hfailures, -⟩ := hcounts
  rw [State.tally, herases, hfailures]; rfl

theorem setFlag_tally (s : State) (f : Flag) : (s.setFlag f).tally = s.tally := rfl

theorem bump_tally (s : State) {c : Counter} (hfailures : c ≠ .programFailures) (herases : c ≠ .erases) :
    (s.bump c).tally = s.tally := by
  rw [State.tally, counter_bump_ne s hfailures.symm, counter_bump_ne s herases.symm]; rfl

theorem completeCycle_tally (fault : Bool) (data : Option HalfWord) (s : State) :
    (completeCycle fault data s).tally = s.tally := by
  unfold completeCycle
  split <;> rfl

theorem mergeWrite_tally (i : Fin 8) (o : Nat) (lower upper : Bool) (data : HalfWord) (s : State) :
    (mergeWrite i o lower upper data s).tally = s.tally := by
  have hmerged : ∀ e : Entry, (completeCycle false none ((s.setEntry i e).bump .hostWrites)).tally = s.tally := fun e =>
    (completeCycle_tally ..).trans (bump_tally (s.setEntry i e) nofun nofun)
  simp only [mergeWrite]
  split
  · exact (tally_of_mgmt (closeEntry_frame ..).mgmt).trans (hmerged _)
  · exact hmerged _

theorem retryHeld_tally (s : State) : (retryHeld s).tally = s.tally := by
  unfold retryHeld
  split
  · unfold absorbWrite
    dsimp only
    split
    · exact mergeWrite_tally ..
    · split
      · exact mergeWrite_tally ..
      · rfl
  · rfl

theorem endCommit_tally (i : Fin 8) {c : Counter} (s : State) (hfailures : c ≠ .programFailures)
    (herases : c ≠ .erases) : (endCommit i c s).tally = s.tally := by
  have hrelease : (releaseEntry i (s.bump c)).tally = s.tally := by
    simp only [releaseEntry]
    refine (retryHeld_tally _).trans (Eq.trans ?_ (bump_tally s hfailures herases))
    split <;> rfl
  exact hrelease

/-! ## The page mover's reports -/

theorem seekSlot_tally (r : OpRecord) (s : State) : (seekSlot r s).tally = s.tally := tally_of_kept (seekSlot_kept ..)

theorem condemn_tally (b : BlockRef) (s : State) : (condemn b s).tally = s.tally := tally_of_mgmt (condemn_frame ..).mgmt

theorem endWrite_tally (r : OpRecord) (s : State) : (endWrite r s).tally = s.tally := by
  unfold endWrite
  split
  · exact endCommit_tally _ s nofun nofun
  · exact (tally_of_mgmt (movedNotice_frame _).mgmt).trans (bump_tally s nofun nofun)

theorem mapUpdate_tally (r : OpRecord) (n : SlotRef) (s : State) : (mapUpdate r n s).tally = s.tally := by
  unfold mapUpdate
  dsimp only
  split
  · exact (tally_of_mgmt (liveMinus_frame ..).mgmt).trans ((tally_of_mgmt (livePlus_frame ..).mgmt).trans
      ((tally_of_kept (moverAsks_kept ..)).trans rfl))
  · exact (endWrite_tally ..).trans (tally_of_mgmt (livePlus_frame ..).mgmt)

theorem afterFailedAttempt_tally (r : OpRecord) (n : SlotRef) (s : State) :
    (afterFailedAttempt r n s).tally = s.tally := by
  unfold afterFailedAttempt
  dsimp only
  split
  · split
    · exact (seekSlot_tally ..).trans (condemn_tally ..)
    · exact (tally_of_kept (stickCommit_kept ..)).trans (condemn_tally ..)
  · split
    · exact (seekSlot_tally ..).trans (condemn_tally ..)
    · exact (tally_of_kept (haltReclaim_kept ..)).trans (condemn_tally ..)

/-- A program of the mover has a result: the next one is asked for, or the attempt or the operation ends. -/
theorem moverProgramDone_tally (pass : Bool) (s : State) : (moverProgramDone pass s).tally = s.tally := by
  have hasks : ∀ r p bk op, (moverAsks r p bk op s).tally = s.tally := fun r p bk op =>
    tally_of_kept (moverAsks_kept ..)
  have hfail : ∀ r n, (failAttempt r n s).tally = s.tally := fun r n => hasks ..
  have hdata : ∀ r n h, (writeData r n h s).tally = s.tally := fun r n h => tally_of_kept (writeData_kept ..)
  unfold moverProgramDone
  split
  · rfl
  · rfl
  · split
    · split
      · split
        · exact tally_of_kept (writeInPlace_kept ..)
        · exact (seekSlot_tally ..).trans (condemn_tally ..)
      · rfl
    · split
      · exact hasks ..
      · exact hfail ..
    · split
      · exact hdata ..
      · exact hfail ..
    · split
      · exact hdata ..
      · exact hfail ..
    · split
      · exact mapUpdate_tally ..
      · exact hfail ..
    · exact afterFailedAttempt_tally ..
    · refine (endWrite_tally ..).trans ?_
      split
      · rfl
      · exact condemn_tally ..
    · rfl

theorem inUseDone_tally (b : BlockRef) (pass : Bool) (s : State) : (inUseDone b pass s).tally = s.tally := by
  unfold inUseDone
  split
  · rfl
  · rfl
  · split
    · refine (seekSlot_tally ..).trans ?_
      split
      · rfl
      · exact condemn_tally ..
    · rfl

/-! ## The block manager's reports -/

theorem closeAll_tally (s : State) : (closeAll s).tally = s.tally := tally_of_mgmt (closeAll_frame s).mgmt

theorem refuseHeld_tally (s : State) : (refuseHeld s).tally = s.tally := by
  unfold refuseHeld
  split
  · exact completeCycle_tally ..
  · rfl

theorem addCause_tally (c : Cause) (s : State) : (addCause c s).tally = s.tally := by
  simp only [addCause]
  split
  · rfl
  · split
    · exact (refuseHeld_tally _).trans ((closeAll_tally _).trans rfl)
    · rfl

theorem capacityCheck_tally (s : State) : (capacityCheck s).tally = s.tally := by
  unfold capacityCheck
  split
  · exact addCause_tally ..
  · rfl

theorem retireBlock_tally (b : BlockRef) (s : State) : (retireBlock b s).tally = s.tally := by
  simp only [retireBlock]
  exact (tally_of_mgmt ((evaluateTriggers_frame _).trans (serveErases_frame _)).mgmt).trans (capacityCheck_tally _)

theorem handOver_tally (bk : BankId) (c : ReqClass) (op : ReqOp) (s : State) :
    (handOver bk c op s).tally = s.tally := tally_of_mgmt (handOver_oneBank ..).frame.mgmt

theorem takeDescriptorResult_tally (b : BlockRef) (prog : DescProgram) (pass : Bool) (s : State) :
    (takeDescriptorResult b prog pass s).tally = s.tally := by
  unfold takeDescriptorResult
  split
  · rfl
  · split
    · split
      · exact tally_of_mgmt (freshPassed_frame ..).mgmt
      · exact handOver_tally ..
    · exact retireBlock_tally ..
    · rfl

/-! ## The volume engine's reports -/

theorem takeTable_tally (records : List (BlockRef × BlockRecord)) (s : State) :
    (takeTable records s).tally = s.tally := (capacityCheck_tally _).trans rfl

theorem formatRecordDone_tally (half : Fin 256) (pass : Bool) (w : FormatWork) (s : State) :
    (formatRecordDone half pass w s).tally = s.tally := by
  have hwrite : ∀ h, (writeRecordHalf h w s).tally = s.tally := fun h => tally_of_mgmt (handOver_setEngine_frame ..).mgmt
  unfold formatRecordDone
  split
  · split
    · unfold completeFormat
      dsimp only
      refine (setFlag_tally ..).trans ((tally_of_mgmt (enterActive_frame _).mgmt).trans ?_)
      exact (takeTable_tally ..).trans rfl
    · split
      · exact hwrite 0
      · exact hwrite _
  · rfl

theorem volumeProgramDone_tally (bk : BankId) (pass : Bool) (s : State) :
    (volumeProgramDone bk pass s).tally = s.tally := by
  cases hw : s.engine with
  | idle =>
    unfold volumeProgramDone
    rw [hw]
  | mount w =>
    unfold volumeProgramDone
    rw [hw]
    dsimp only
    split
    · exact tally_of_mgmt (mountRepairDone_frame ..).mgmt
    · rfl
  | format w =>
    rcases volumeProgramDone_format_cases bk pass hw with
      heq | ⟨half, heq⟩ | ⟨n, b, t, heq⟩ | ⟨n, b, t, heq⟩ | ⟨n, b, t, heq⟩ <;> rw [heq]
    · exact formatRecordDone_tally ..
    · exact tally_of_mgmt (formatNext_frame ..).mgmt
    · exact tally_of_mgmt (handOver_setEngine_frame ..).mgmt
    · exact (tally_of_mgmt (formatNext_frame ..).mgmt).trans (setFlag_tally ..)

/-! ## The end of a program (R101, R109, R179) -/

theorem reportDescriptor_tally (bk : BankId) (c : ReqClass) (b : BlockRef) (prog : DescProgram) (pass : Bool)
    (s : State) : (reportDescriptor bk c b prog pass s).tally = s.tally := by
  cases c
  · rfl
  · exact inUseDone_tally ..
  · exact takeDescriptorResult_tally ..
  · exact volumeProgramDone_tally ..

theorem reportProgram_tally (bk : BankId) (c : ReqClass) (pass : Bool) (s : State) :
    (reportProgram bk c pass s).tally = s.tally := by
  cases c
  · rfl
  · exact moverProgramDone_tally ..
  · rfl
  · exact volumeProgramDone_tally ..

theorem bumpIf_programFailures (s : State) (b : Bool) : (s.bumpIf b .programFailures).counter .programFailures =
    (if b then saturatingSucc (s.counter .programFailures) else s.counter .programFailures) := by
  cases b
  · rfl
  · exact counter_bump s .programFailures

/-- A program that fails is counted once, and nothing else is (log 17). -/
theorem finishProgram_tally (bk : BankId) (c : ReqClass) (pass : Bool) (s : State) :
    (finishProgram bk c pass s).tally = (s.bumpIf (!pass) .programFailures).tally := by
  have hempty : ∀ u : State, (emptySlot bk c u).tally = u.tally := fun u => tally_of_mgmt (setBank_mgmt ..)
  unfold finishProgram
  dsimp only
  split
  · split
    · exact tally_of_mgmt (setBank_mgmt ..)
    · exact (reportDescriptor_tally ..).trans (hempty _)
    · exact (reportProgram_tally ..).trans (hempty _)
  · rfl

end Sys2Proof.Machine
end

section
/-! SUPPORT. Block records and live counts (R5, R72, R73), and the bank controllers at the end of a program. -/

-- In order: as one text the package would start more threads than memory has stacks for.
set_option Elab.async false

namespace Sys2Proof.Machine

/-! ## Records -/

theorem recordIn_cons (p : BlockRef × BlockRecord) (l : List (BlockRef × BlockRecord)) (b : BlockRef) :
    recordIn (p :: l) b = if p.1 = b then some p.2 else recordIn l b := by
  rw [recordIn, List.find?_cons]
  by_cases h : p.1 = b
  · simp [h]
  · have hne : (p.1 == b) = false := by simpa using h
    rw [hne, if_neg h]
    rfl

theorem recordIn_modify (l : List (BlockRef × BlockRecord)) (b x : BlockRef) (f : BlockRecord → BlockRecord) :
    recordIn (l.map fun p => if p.1 = b then (p.1, f p.2) else p) x =
      if x = b then (recordIn l b).map f else recordIn l x := by
  induction l with
  | nil => simp [recordIn]
  | cons p l ih =>
    rw [List.map_cons, recordIn_cons, recordIn_cons, recordIn_cons, ih]
    by_cases hp : p.1 = b <;> by_cases hx : x = b
    · simp [hp, hx]
    · have hne : ¬ b = x := fun h => hx h.symm
      simp [hp, hx, hne]
    · subst hx
      simp [hp]
    · simp [hp, hx]

theorem record_modifyRecord (s : State) (b x : BlockRef) (f : BlockRecord → BlockRecord) :
    (s.modifyRecord b f).record x = if x = b then (s.record b).map f else s.record x := recordIn_modify ..

/-- The live count of a block, if a record of it is held (R72). -/
def State.live (s : State) (b : BlockRef) : Option Nat := (s.record b).map BlockRecord.live

/-- The count of a block in a list of blocks with their live counts. -/
def liveIn : List (BlockRef × Nat) → BlockRef → Option Nat
  | [], _ => none
  | p :: l, b => if p.1 = b then some p.2 else liveIn l b

theorem live_eq_liveIn (s : State) (b : BlockRef) : s.live b = liveIn s.kept.lives b := by
  rw [State.live, State.record, show s.kept.lives = s.blocks.records.map fun p => (p.1, p.2.live) from rfl]
  induction s.blocks.records with
  | nil => rfl
  | cons p l ih =>
    rw [recordIn_cons, List.map_cons, liveIn, ← ih]
    split <;> rfl

theorem live_of_kept {s t : State} (h : t.kept = s.kept) (b : BlockRef) : t.live b = s.live b := by
  rw [live_eq_liveIn, live_eq_liveIn, h]

theorem live_of_blocks {s t : State} (h : t.blocks = s.blocks) (b : BlockRef) : t.live b = s.live b := by
  rw [State.live, State.record, h]; rfl

theorem exists_record_of_live {s : State} {b : BlockRef} {n : Nat} (h : s.live b = some n) :
    ∃ k, s.record b = some k ∧ k.live = n := Option.map_eq_some_iff.mp h

theorem live_of_record {s : State} {b : BlockRef} {k : BlockRecord} (h : s.record b = some k) :
    s.live b = some k.live := by
  rw [State.live, h]; rfl

theorem live_modifyRecord (s : State) (b x : BlockRef) {f : BlockRecord → BlockRecord} {g : Nat → Nat}
    (hf : ∀ r, (f r).live = g r.live) :
    (s.modifyRecord b f).live x = if x = b then (s.live b).map g else s.live x := by
  rw [State.live, record_modifyRecord]
  split
  · rw [State.live, Option.map_map, Option.map_map]
    exact congrArg (Option.map · _) (funext hf)
  · rfl

/-- R73: a live + 1 notice. -/
theorem live_livePlus (b x : BlockRef) (s : State) :
    (livePlus b s).live x = if x = b then (s.live b).map (· + 1) else s.live x := by
  rw [← live_modifyRecord s b x (f := fun r => { r with live := r.live + 1 }) fun _ => rfl]
  simp only [livePlus]
  split <;> rfl

/-- R73: a live − 1 notice, whatever becomes of the block. -/
theorem live_liveMinus (b x : BlockRef) (fromCommit : Bool) (s : State) :
    (liveMinus b fromCommit s).live x = if x = b then (s.live b).map (· - 1) else s.live x := by
  rw [← live_modifyRecord s b x (f := fun r => { r with live := r.live - 1 }) fun _ => rfl]
  simp only [liveMinus]
  split
  · split
    · split
      · exact live_of_kept (joinErase_kept ..) x
      · split
        · exact live_of_kept (finishVictim_kept _) x
        · rfl
    · rfl
  · rfl

theorem movedNotice_kept (s : State) : (movedNotice s).kept = s.kept := by
  simp only [movedNotice]
  split
  · split
    · split
      · exact (finishVictim_kept _).trans rfl
      · rfl
    · rfl
  · rfl

/-- The end of a relocation or a move moves no live count and no map entry (R60, R64). -/
theorem endWrite_live (r : OpRecord) (b : BlockRef) (s : State) :
    (endWrite r s).live b = s.live b ∧ (endWrite r s).pageMap = s.pageMap := by
  unfold endWrite
  split
  case h_1 i _ _ =>
    have hkept : (endCommit i .relocations s).kept = (s.bump .relocations).kept :=
      (setActivity_kept ..).trans (releaseEntry_kept ..)
    exact ⟨(live_of_kept hkept b).trans rfl, congrArg Kept.pageMap hkept⟩
  case h_2 =>
    have hkept : ((movedNotice (s.bump .reclaimMoves)).setActivity .idle).kept = (s.bump .reclaimMoves).kept :=
      movedNotice_kept _
    exact ⟨(live_of_kept hkept b).trans rfl, congrArg Kept.pageMap hkept⟩

end Sys2Proof.Machine
end

section
/-! PROOF. The ends of programs (R101, R109, R181): the verify read, the next halfword, the failed attempt, the map
update and the timeout. -/

-- In order: as one text the package would start more threads than memory has stacks for.
set_option Elab.async false

namespace Sys2Proof.Machine

/-! ## What follows a program's end -/

theorem flashByte_of_base {s t : State} (h : t.base = s.base) (bk : BankId) (a : Nat) :
    t.flashByte bk a = s.flashByte bk a := sameArrays_of_stores (stores_of_base h) bk a

theorem half_of_base {s t : State} (h : t.base = s.base) (bk : BankId) (slot : SlotRef) (i : Fin 256) :
    (t.flash bk).half slot i = (s.flash bk).half slot i :=
  half_congr (f := s.flash bk) (g := t.flash bk) i fun a _ => flashByte_of_base h bk a

theorem verifyPasses_iff (old v value : HalfWord) :
    verifyPasses old v value = true ↔ value = v ∧ (old &&& v) = v := by
  simp [verifyPasses]

theorem counter_of_tally {s t : State} (h : t.tally = s.tally) : t.counter .programFailures = s.counter .programFailures :=
  congrArg Prod.fst h

theorem erases_of_tally {s t : State} (h : t.tally = s.tally) : t.counter .erases = s.counter .erases :=
  congrArg Prod.snd h

theorem endAction_tally (bk : BankId) (s : State) : (endAction bk s).tally = s.tally :=
  tally_of_mgmt (endAction_frame bk s).mgmt

theorem settle_tally (s : State) : (settle s).tally = s.tally := tally_of_kept (settle_kept s)

theorem setHalf_tally (bk : BankId) (slot : SlotRef) (h : Fin 256) (v : HalfWord) (s : State) :
    (setHalf bk slot h v s).tally = s.tally := tally_of_mgmt (setFlash_mgmt ..)

/-- The state whose verify read has returned: the array holds the value read, and the program has its result (R101). -/
def State.verified (s : State) (bk : BankId) (c : ReqClass) (slot : SlotRef) (h : Fin 256) (v value : HalfWord) :
    State :=
  finishProgram bk c (verifyPasses ((s.flash bk).half slot h) v value)
    (setHalf bk slot h (verifiedHalf ((s.flash bk).half slot h) value) s)

theorem exec_programVerifyDone_of_verify {s : State} {bk : BankId} {c : ReqClass} {slot : SlotRef} {h : Fin 256}
    {v : HalfWord} (value : HalfWord) (hactive : (s.bank bk).active = some { cls := c, act := .verify slot h v }) :
    exec (.programVerifyDone bk value) s = .next (settle (endAction bk (s.verified bk c slot h v value))) := by
  simp only [exec, execProgramVerifyDone, hactive]
  rfl

theorem exec_programEnd_of_program {s : State} {bk : BankId} {c : ReqClass} {slot : SlotRef} {h : Fin 256}
    {v : HalfWord} (hactive : (s.bank bk).active = some { cls := c, act := .program slot h v }) :
    exec (.programEnd bk) s = .next (setAction bk { cls := c, act := .verify slot h v } s) := by
  simp only [exec, execProgramEnd, hactive]

/-- Settles O26: the array changes in `setHalf` alone, and the count is made in `finishProgram`. -/
theorem programsEndByTheirVerify : Obligations.ProgramsEndByTheirVerify := by
  refine ⟨fun s bk => ⟨fun c slot h v hactive => exec_programEnd_of_program hactive, fun hnone => ?ignored⟩,
    fun s bk value c slot h v hactive => ⟨_, exec_programVerifyDone_of_verify value hactive, ?half, fun other a hne => ?others,
      ?count⟩⟩
  case ignored => simp only [exec, execProgramEnd]
  case half =>
    refine (half_of_base (settle_finishProgram_base ..) ..).trans ?_
    simp only [setHalf, setFlash_flash, Flash.half_writeHalf, verifiedHalf]
  case others =>
    exact (flashByte_of_base (settle_finishProgram_base ..) ..).trans (flashByte_writeHalf s _ hne)
  case count =>
    have htally := (settle_tally (endAction bk (s.verified bk c slot h v value))).trans
      ((endAction_tally ..).trans (finishProgram_tally ..))
    have hbefore := counter_of_tally (setHalf_tally bk slot h (verifiedHalf ((s.flash bk).half slot h) value) s)
    rw [counter_of_tally htally, bumpIf_programFailures, hbefore]
    have hpass := verifyPasses_iff ((s.flash bk).half slot h) v value
    by_cases hok : value = v ∧ ((s.flash bk).half slot h &&& v) = v
    · rw [if_pos hok, hpass.mpr hok]
      rfl
    · rw [if_neg hok, Bool.eq_false_iff.mpr fun hx => hok (hpass.mp hx)]
      rfl

/-! ## The next halfword of a descriptor program (R181) -/

theorem setHalf_bank (bk other : BankId) (slot : SlotRef) (h : Fin 256) (v : HalfWord) (s : State) :
    (setHalf bk slot h v s).bank other = s.bank other := by
  cases other
  · exact setFlash_bankA ..
  · exact setFlash_bankB ..

/-- The program of a halfword that is not the last of its sequence passes: the request goes on to the next. -/
theorem finishProgram_of_next {s : State} {bk : BankId} {c : ReqClass} {q : Request} {b : BlockRef} {g : DescProgram}
    {h h2 : Fin 256} {w v2 : HalfWord} {rest : List (Fin 256 × HalfWord)} (hq : (s.bank bk).slot c = some q)
    (hop : q.op = .descriptor b g (.write h w ((h2, v2) :: rest))) :
    finishProgram bk c true s = replaceOp bk c q (.descriptor b g (.write h2 v2 rest)) s := by
  simp only [finishProgram, hq, hop]
  rfl

theorem slot_replaceOp {s : State} {bk : BankId} {c : ReqClass} (q : Request) (op : ReqOp) (hc : c ≠ .host) :
    ((replaceOp bk c q op s).bank bk).slot c = some { q with op := op } := by
  rw [replaceOp, setBank_bank]
  cases c
  case host => exact absurd rfl hc
  all_goals rfl

theorem moverIdle_of_activity {s t : State} (h : t.mover.activity = s.mover.activity) : t.moverIdle = s.moverIdle := by
  rw [State.moverIdle, h]; rfl

theorem verified_of_next {s : State} {bk : BankId} {c : ReqClass} {q : Request} {b : BlockRef} {g : DescProgram}
    {slot : SlotRef} {half h h2 : Fin 256} {v w v2 : HalfWord} {rest : List (Fin 256 × HalfWord)}
    (hq : (s.bank bk).slot c = some q) (hop : q.op = .descriptor b g (.write h w ((h2, v2) :: rest)))
    (hset : ((s.flash bk).half slot half &&& v) = v) :
    s.verified bk c slot half v v = replaceOp bk c q (.descriptor b g (.write h2 v2 rest))
      (setHalf bk slot half (verifiedHalf ((s.flash bk).half slot half) v) s) := by
  rw [State.verified, (verifyPasses_iff _ v v).mpr ⟨rfl, hset⟩]
  exact finishProgram_of_next (by rw [setHalf_bank]; exact hq) hop

/-- Settles O29: the sequences by their definitions, and the step from one halfword to the next by `replaceOp`. -/
theorem descriptorProgramsEndWithTheStateByte : Obligations.DescriptorProgramsEndWithTheStateByte := by
  refine ⟨fun _ => rfl, fun _ => rfl, fun _ => rfl, fun _ _ => rfl, fun n x c0 c1 c2 hnot => ?count,
    fun s bk c q b g slot half h h2 v w v2 rest hactive hq hmover hop hset => ?next⟩
  case count => exact if_neg hnot
  case next =>
    have hc : c ≠ .host := by rintro rfl; cases hq
    let u := setHalf bk slot half (verifiedHalf ((s.flash bk).half slot half) v) s
    let t := replaceOp bk c q (.descriptor b g (.write h2 v2 rest)) u
    have hframe : BankFrame u (endAction bk t) :=
      (setBank_oneBank u bk _).frame.trans (endAction_frame bk t)
    have hbusy : c = .mover → (endAction bk t).moverIdle = false := fun hm =>
      (moverIdle_of_activity (congrArg Mover.activity (hframe.mover.trans (setFlash_mover ..)))).trans (hmover hm)
    have hsame := sameSlot_trans (endAction_sameSlot bk bk c t) (settle_sameSlot bk (endAction bk t) hbusy)
    obtain ⟨q', hq', hop', hmoment⟩ := exists_of_sameSlot hsame (slot_replaceOp q _ hc)
    refine ⟨_, exec_programVerifyDone_of_verify v hactive, q', ?_, hop', hmoment⟩
    rw [verified_of_next hq hop hset]
    exact hq'

end Sys2Proof.Machine
end

section
/-! PROOF. The page mover at the end of its programs (R60, R61): the failed attempt and the map update. -/

-- In order: as one text the package would start more threads than memory has stacks for.
set_option Elab.async false

namespace Sys2Proof.Machine

theorem finishProgram_of_report {s : State} {bk : BankId} {c : ReqClass} {q : Request} (pass : Bool)
    (hq : (s.bank bk).slot c = some q) (hop : ∀ b g step, q.op ≠ .descriptor b g step) :
    finishProgram bk c pass s =
      reportProgram bk c pass (emptySlot bk c (s.bumpIf (!pass) .programFailures)) := by
  unfold finishProgram
  rw [hq]
  dsimp only
  cases hr : q.op with
  | descriptor b g step => exact absurd hr (hop b g step)
  | _ => cases pass <;> rfl

/-- The state in which a program's result is reported: the halfword as it reads, the failure counted, the slot empty. -/
def State.beforeReport (s : State) (bk : BankId) (c : ReqClass) (slot : SlotRef) (h : Fin 256) (v value : HalfWord) :
    State :=
  emptySlot bk c ((setHalf bk slot h (verifiedHalf ((s.flash bk).half slot h) value) s).bumpIf
    (!verifyPasses ((s.flash bk).half slot h) v value) .programFailures)

theorem verified_of_mover {s : State} {bk : BankId} {q : Request} {slot : SlotRef} {h : Fin 256} {v value : HalfWord}
    (hq : (s.bank bk).mover = some q) (hop : ∀ b g step, q.op ≠ .descriptor b g step) :
    s.verified bk .mover slot h v value =
      moverProgramDone (verifyPasses ((s.flash bk).half slot h) v value) (s.beforeReport bk .mover slot h v value) :=
  finishProgram_of_report (c := .mover) _ (by rw [setHalf_bank]; exact hq) hop

theorem bumpIf_eq (s : State) (b : Bool) (c : Counter) :
    s.bumpIf b c = { s with mgmt := { s.mgmt with counters := (s.bumpIf b c).mgmt.counters } } := by
  cases b <;> rfl

theorem beforeReport_eq (s : State) (bk : BankId) (c : ReqClass) (slot : SlotRef) (h : Fin 256) (v value : HalfWord) :
    (s.beforeReport bk c slot h v value).mover = s.mover ∧ (s.beforeReport bk c slot h v value).pageMap = s.pageMap ∧
      (s.beforeReport bk c slot h v value).blocks = s.blocks := by
  have hbump := bumpIf_eq (setHalf bk slot h (verifiedHalf ((s.flash bk).half slot h) value) s)
    (!verifyPasses ((s.flash bk).half slot h) v value) .programFailures
  rw [State.beforeReport, emptySlot, hbump]
  cases bk <;> exact ⟨rfl, rfl, rfl⟩

/-! ## What the arbiter finds when the mover stays busy -/

theorem busy_of_running {s : State} {r : OpRecord} (h : s.mover.activity = .running r) : s.moverIdle = false := by
  simp only [State.moverIdle, h]

/-- The mover stays busy, so the end of a program is followed by the banks' choices alone. -/
theorem settle_endAction_frame {s : State} {r : OpRecord} (bk : BankId) (h : s.mover.activity = .running r) :
    BankFrame s (settle (endAction bk s)) := by
  have hframe := endAction_frame bk s
  rw [settle_of_busy (busy_of_running ((congrArg Mover.activity hframe.mover).trans h))]
  exact hframe.trans (kickBanks_frame _)

theorem settle_endAction_asks {s : State} {r : OpRecord} {bk other : BankId} {op : ReqOp}
    (h : s.mover.activity = .running r) (hasks : (s.bank other).asks .mover op) :
    ((settle (endAction bk s)).bank other).asks .mover op :=
  hasks.of_sameSlot (sameSlot_trans (endAction_sameSlot bk other .mover s) (settle_sameSlot other _ fun _ =>
    busy_of_running ((congrArg Mover.activity (endAction_frame bk s).mover).trans h)))

theorem moverAsks_eq (r : OpRecord) (p : Phase) (bk : BankId) (op : ReqOp) (s : State) :
    (moverAsks r p bk op s).mover.activity = .running { r with phase := p } ∧
      ((moverAsks r p bk op s).bank bk).asks .mover op ∧ (moverAsks r p bk op s).pageMap = s.pageMap ∧
      (moverAsks r p bk op s).blocks = s.blocks := by
  have hframe := (handOver_oneBank bk .mover op (s.setActivity (.running { r with phase := p }))).frame
  exact ⟨congrArg Mover.activity hframe.mover, handOver_asks bk op _ nofun, hframe.pageMap, hframe.blocks⟩

/-! ## The failed attempt (R61) -/

theorem moverProgramDone_of_fail {s : State} {r : OpRecord} {n : SlotRef} (hactivity : s.mover.activity = .running r)
    (hphase : r.phase = .claimPage ∨ r.phase = .claimState ∨ (∃ k, r.phase = .data k) ∨ r.phase = .valid)
    (hnew : r.newSlot = some n) : moverProgramDone false s = failAttempt r n s := by
  unfold moverProgramDone
  rw [hactivity]
  rcases hphase with hphase | hphase | ⟨k, hphase⟩ | hphase <;> simp only [hphase, hnew] <;> rfl

/-- Settles O28: the report of the failure is `failAttempt`. -/
theorem failedAttemptMarksTheNewSlotStale : Obligations.FailedAttemptMarksTheNewSlotStale := by
  intro s bk value v r n q slot h hrunning hphase hnew hactive hq hop hfails
  have hpass : verifyPasses ((s.flash bk).half slot h) v value = false := by
    rw [← Bool.not_eq_true, verifyPasses_iff]
    exact fun hx => hfails.elim (fun hne => hne hx.1) fun hne => hne hx.2
  obtain ⟨hmover, hmap, -⟩ := beforeReport_eq s bk .mover slot h v value
  have hverified : s.verified bk .mover slot h v value = failAttempt r n (s.beforeReport bk .mover slot h v value) := by
    rw [verified_of_mover hq hop, hpass]
    exact moverProgramDone_of_fail ((congrArg Mover.activity hmover).trans hrunning) hphase hnew
  have htally := (settle_tally (endAction bk (s.verified bk .mover slot h v value))).trans
    ((endAction_tally ..).trans (finishProgram_tally ..))
  have hbefore := counter_of_tally (setHalf_tally bk slot h (verifiedHalf ((s.flash bk).half slot h) value) s)
  obtain ⟨hactivity, hasks, hmap', -⟩ := moverAsks_eq r .staleNew n.bank (.mark n codeStale)
    (s.beforeReport bk .mover slot h v value)
  rw [← failAttempt, ← hverified] at hactivity hasks hmap'
  have hframe := settle_endAction_frame bk hactivity
  refine ⟨_, exec_programVerifyDone_of_verify value hactive, hframe.pageMap.trans (hmap'.trans hmap),
    (congrArg Mover.activity hframe.mover).trans hactivity, settle_endAction_asks hactivity hasks, ?_⟩
  rw [counter_of_tally htally, bumpIf_programFailures, hpass, hbefore]
  rfl

/-! ## The map update (R5, R60, R64, R73) -/

theorem moverProgramDone_of_valid {s : State} {r : OpRecord} {n : SlotRef} (hactivity : s.mover.activity = .running r)
    (hphase : r.phase = .valid) (hnew : r.newSlot = some n) : moverProgramDone true s = mapUpdate r n s := by
  unfold moverProgramDone
  rw [hactivity]
  simp only [hphase, hnew]
  rfl

/-- The state with the map entry of an operation's page set (R5). -/
def State.withMapped (s : State) (r : OpRecord) (n : SlotRef) : State :=
  { s with pageMap := assocSet s.pageMap r.page { slot := n, version := r.newVersion } }

theorem mapped_of_pageMap {s t : State} {r : OpRecord} {n : SlotRef} (h : t.pageMap = (s.withMapped r n).pageMap) :
    t.mapped r.page = some { slot := n, version := r.newVersion } ∧
      ∀ p, p ≠ r.page → t.mapped p = s.mapped p := by
  refine ⟨?_, fun p hp => ?_⟩ <;> rw [State.mapped, h]
  · exact assocGet_assocSet_same ..
  · exact assocGet_assocSet_ne _ _ hp

theorem mapUpdate_of_source {r : OpRecord} {n : SlotRef} {s : State} {old : MapEntry} (h : r.source = some old) :
    mapUpdate r n s = liveMinus old.slot.block r.isCommit (livePlus n.block
      (moverAsks r .staleOld old.slot.bank (.mark old.slot codeStale) (s.withMapped r n))) := by
  simp only [mapUpdate, h]
  rfl

theorem mapUpdate_of_no_source {r : OpRecord} {n : SlotRef} {s : State} (h : r.source = none) :
    mapUpdate r n s = endWrite r (livePlus n.block (s.withMapped r n)) := by
  simp only [mapUpdate, h]
  rfl

theorem mapUpdate_pageMap (r : OpRecord) (n : SlotRef) (s : State) :
    (mapUpdate r n s).pageMap = (s.withMapped r n).pageMap := by
  cases h : r.source with
  | none =>
    rw [mapUpdate_of_no_source h]
    exact (endWrite_live r n.block _).2.trans (livePlus_frame ..).pageMap
  | some old =>
    obtain ⟨-, -, hmap, -⟩ := moverAsks_eq r .staleOld old.slot.bank (.mark old.slot codeStale) (s.withMapped r n)
    rw [mapUpdate_of_source h]
    exact (liveMinus_frame ..).pageMap.trans ((livePlus_frame ..).pageMap.trans hmap)

/-- R5, R73: the new slot's block counts one live page more, and the old slot's one less. -/
theorem live_mapUpdate_new {r : OpRecord} {n : SlotRef} {s : State}
    (hne : ∀ old, r.source = some old → old.slot.block ≠ n.block) :
    (mapUpdate r n s).live n.block = (s.live n.block).map (· + 1) := by
  cases h : r.source with
  | none =>
    rw [mapUpdate_of_no_source h, (endWrite_live r n.block _).1, live_livePlus, if_pos rfl]
    rfl
  | some old =>
    obtain ⟨-, -, -, hblocks⟩ := moverAsks_eq r .staleOld old.slot.bank (.mark old.slot codeStale) (s.withMapped r n)
    rw [mapUpdate_of_source h, live_liveMinus, if_neg (hne old h).symm, live_livePlus, if_pos rfl,
      live_of_blocks hblocks]
    rfl

theorem live_mapUpdate_old {r : OpRecord} {n : SlotRef} {s : State} {old : MapEntry} (h : r.source = some old)
    (hne : old.slot.block ≠ n.block) :
    (mapUpdate r n s).live old.slot.block = (s.live old.slot.block).map (· - 1) := by
  obtain ⟨-, -, -, hblocks⟩ := moverAsks_eq r .staleOld old.slot.bank (.mark old.slot codeStale) (s.withMapped r n)
  rw [mapUpdate_of_source h, live_liveMinus, if_pos rfl, live_livePlus, if_neg hne, live_of_blocks hblocks]
  rfl

/-- R60, R97: the STALE program of the old slot is handed over before the live notices, which take no request out of a
slot. -/
theorem mapUpdate_staleOld {r : OpRecord} {n : SlotRef} {s : State} {old : MapEntry} (h : r.source = some old) :
    (mapUpdate r n s).mover.activity = .running { r with phase := .staleOld } ∧
      ((mapUpdate r n s).bank old.slot.bank).asks .mover (.mark old.slot codeStale) := by
  obtain ⟨hactivity, hasks, -, -⟩ := moverAsks_eq r .staleOld old.slot.bank (.mark old.slot codeStale) (s.withMapped r n)
  rw [mapUpdate_of_source h]
  have hbanks := (liveMinus_besideErases _ old.slot.block r.isCommit).trans (livePlus_besideErases
    (moverAsks r .staleOld old.slot.bank (.mark old.slot codeStale) (s.withMapped r n)) n.block)
  exact ⟨(congrArg Mover.activity ((liveMinus_frame ..).mover.trans (livePlus_frame ..).mover)).trans hactivity,
    hasks.of_sameSlot (sameSlot_of_eq (slot_of_besideErases hbanks _ _))⟩

/-- Settles O27: the report of the pass is `mapUpdate`, and the arbiter keeps the map and the live counts. -/
theorem validProgramMovesThePage : Obligations.ValidProgramMovesThePage := by
  intro s bk v r n q slot h hrunning hphase hnew hactive hq hop hset
  obtain ⟨hmover, hmap, hblocks⟩ := beforeReport_eq s bk .mover slot h v v
  let u := s.beforeReport bk .mover slot h v v
  have hverified : s.verified bk .mover slot h v v = mapUpdate r n u := by
    rw [verified_of_mover hq (by simp [hop]), (verifyPasses_iff _ v v).mpr ⟨rfl, hset⟩]
    exact moverProgramDone_of_valid ((congrArg Mover.activity hmover).trans hrunning) hphase hnew
  have hkept : (settle (endAction bk (mapUpdate r n u))).kept = (mapUpdate r n u).kept :=
    (settle_kept _).trans (endAction_kept ..)
  have hlive : ∀ b, u.live b = s.live b := live_of_blocks hblocks
  obtain ⟨hpage, hothers⟩ := mapped_of_pageMap ((congrArg Kept.pageMap hkept).trans (mapUpdate_pageMap r n u))
  refine ⟨settle (endAction bk (mapUpdate r n u)), by rw [exec_programVerifyDone_of_verify v hactive, hverified], hpage,
    fun p hp => ?others, fun k hk hne => ?new, fun old hold => ⟨fun k hk hne => ?old, ?stale⟩⟩
  case others =>
    rw [hothers p hp, State.mapped, hmap]
    rfl
  case new =>
    refine exists_record_of_live ?_
    rw [live_of_kept hkept, live_mapUpdate_new hne, hlive, live_of_record hk]
    rfl
  case old =>
    refine exists_record_of_live ?_
    rw [live_of_kept hkept, live_mapUpdate_old hold hne, hlive, live_of_record hk]
    rfl
  case stale =>
    obtain ⟨hactivity, hasks⟩ := mapUpdate_staleOld (n := n) (s := u) hold
    exact ⟨(congrArg Mover.activity (settle_endAction_frame bk hactivity).mover).trans hactivity,
      settle_endAction_asks hactivity hasks⟩

end Sys2Proof.Machine
end

section
/-! SUPPORT. The end of an erase (R102, R105, R108): what it leaves in the arrays, the bank controllers, the block table
and the counters, before the banks choose. -/

-- In order: as one text the package would start more threads than memory has stacks for.
set_option Elab.async false

namespace Sys2Proof.Machine

/-! ## The bank's own work -/

/-- What a bank carries out, with no regard to its request slots. -/
structure BankWork where
  state : BankState
  active : Option Active
  context : Option EraseContext
  suspendTimer : Option Nat

/-- The work of a bank. -/
def BankCtl.work (k : BankCtl) : BankWork :=
  { state := k.state, active := k.active, context := k.context, suspendTimer := k.suspendTimer }

theorem handOver_work (bk other : BankId) (c : ReqClass) (op : ReqOp) (s : State) :
    ((handOver bk c op s).bank other).work = (s.bank other).work := by
  by_cases h : other = bk
  · subst h
    rw [handOver, setBank_bank]
    cases c <;> rfl
  · rw [(handOver_oneBank bk c op s).bank_ne h]

theorem handErase_work (r : EraseRequest) (other : BankId) (s : State) :
    ((handErase r s).bank other).work = (s.bank other).work := by
  by_cases h : other = BlockRef.bank r.block
  · subst h
    simp only [handErase]
    rw [setBank_bank]
    rfl
  · rw [(handErase_oneBank r s).bank_ne h]

theorem bank_congr {s t : State} (hA : t.bankA = s.bankA) (hB : t.bankB = s.bankB) (bk : BankId) :
    t.bank bk = s.bank bk := by
  cases bk
  · exact hA
  · exact hB

/-! ## The array and the context -/

/-- `t` is `s` but for the arrays and the bank controllers. -/
def ArrayFrame (s t : State) : Prop :=
  t = { s with bankA := t.bankA, bankB := t.bankB, flashA := t.flashA, flashB := t.flashB, freeNext := t.freeNext }

namespace ArrayFrame

variable {s t u : State}

theorem refl (s : State) : ArrayFrame s s := rfl

theorem trans (hst : ArrayFrame s t) (htu : ArrayFrame t u) : ArrayFrame s u := by
  unfold ArrayFrame at *
  rw [htu, hst]

theorem service (h : ArrayFrame s t) : t.service = s.service := by rw [h]
theorem blocks (h : ArrayFrame s t) : t.blocks = s.blocks := by rw [h]
theorem engine (h : ArrayFrame s t) : t.engine = s.engine := by rw [h]
theorem mgmt (h : ArrayFrame s t) : t.mgmt = s.mgmt := by rw [h]

end ArrayFrame

theorem FlashFrame.arrayFrame {s t : State} (h : FlashFrame s t) : ArrayFrame s t := by rw [h]; rfl

theorem BankFrame.arrayFrame {s t : State} (h : BankFrame s t) : ArrayFrame s t := by rw [h]; rfl

theorem endErase_of_context {s : State} {bk : BankId} {c : EraseContext} (pass : Bool)
    (h : (s.bank bk).context = some c) : endErase bk pass s =
      (eraseArray c.block pass s).setBank bk { s.bank bk with context := none, suspendTimer := none } := by
  simp only [endErase, h]

theorem endErase_frame {s : State} {bk : BankId} {c : EraseContext} (pass : Bool)
    (h : (s.bank bk).context = some c) : ArrayFrame s (endErase bk pass s) := by
  rw [endErase_of_context pass h]
  exact (eraseArray_frame ..).arrayFrame.trans (setBank_oneBank ..).frame.arrayFrame

theorem endErase_bank {s : State} {bk : BankId} {c : EraseContext} (pass : Bool)
    (h : (s.bank bk).context = some c) :
    (endErase bk pass s).bank bk = { s.bank bk with context := none, suspendTimer := none } := by
  rw [endErase_of_context pass h, setBank_bank]

theorem flashByte_endErase {s : State} {bk : BankId} {c : EraseContext} (pass : Bool)
    (h : (s.bank bk).context = some c) (other : BankId) (a : Nat) :
    (endErase bk pass s).flashByte other a = (eraseArray c.block pass s).flashByte other a := by
  rw [endErase_of_context pass h, State.flashByte, setBank_flash]
  rfl

theorem finishErase_of_context {s : State} {bk : BankId} {c : EraseContext} (pass : Bool)
    (h : (s.bank bk).context = some c) : finishErase bk pass s = reportErase bk c pass (endErase bk pass s) := by
  simp only [finishErase, h]

/-- No byte outside the block changes, whatever the result and whoever asked (R102). -/
theorem flashByte_finishErase {s : State} {bk : BankId} {c : EraseContext} (pass : Bool)
    (h : (s.bank bk).context = some c) {other : BankId} {a : Nat}
    (ha : other = BlockRef.bank c.block → a / 65536 ≠ BlockRef.index c.block) :
    (finishErase bk pass s).flashByte other a = s.flashByte other a := by
  rw [finishErase_of_context pass h, flashByte_of_base (reportErase_base ..), flashByte_endErase pass h]
  exact flashByte_eraseArray c.block pass s ha

/-- A block erased with pass reads FFh (R100). -/
theorem flashByte_finishErase_pass {s : State} {bk : BankId} {c : EraseContext} (h : (s.bank bk).context = some c)
    {a : Nat} (ha : a / 65536 = BlockRef.index c.block) :
    (finishErase bk true s).flashByte (BlockRef.bank c.block) a = 0xFF#8 := by
  rw [finishErase_of_context true h, flashByte_of_base (reportErase_base ..), flashByte_endErase true h]
  exact flashByte_eraseArray_pass c.block s ha

theorem finishErase_partErased {s : State} {bk : BankId} {c : EraseContext} (h : (s.bank bk).context = some c) :
    PartErased s.flashA (finishErase bk false s).flashA := by
  refine (eraseArray_partErased c.block s).trans (.of_volume (volume_congr fun a _ => ?_))
  rw [finishErase_of_context false h]
  exact (flashByte_of_base (reportErase_base ..) .a a).trans (flashByte_endErase false h .a a)

/-! ## The reports leave the bank's work -/

theorem takeEraseResult_work (b : BlockRef) (pass : Bool) (bk : BankId) (s : State) :
    ((takeEraseResult b pass s).bank bk).work = (s.bank bk).work := by
  have hbump : (s.bumpIf pass .erases).bank bk = s.bank bk := by
    rw [bumpIf_eq]; cases bk <;> rfl
  simp only [takeEraseResult]
  split
  · rw [hbump]
  · split
    · exact (handOver_work ..).trans (congrArg BankCtl.work hbump)
    · exact (handOver_work ..).trans (congrArg BankCtl.work hbump)

theorem formatNext_work (k : BankId) (todo : List BlockRef) (w : FormatWork) (bk : BankId) (s : State) :
    ((formatNext k todo w s).bank bk).work = (s.bank bk).work := by
  unfold formatNext
  split
  · rfl
  · exact handErase_work ..

theorem formatStartBlocks_work (k bk : BankId) (s : State) :
    ((formatStartBlocks k s).bank bk).work = (s.bank bk).work := by
  unfold formatStartBlocks
  split
  · dsimp only
    split
    · rfl
    · exact formatNext_work ..
  · rfl
  · rfl

theorem formatBlockErased_work (k : BankId) (n : Nat) (b : BlockRef) (rest : List BlockRef) (pass : Bool)
    (w : FormatWork) (bk : BankId) (s : State) :
    ((formatBlockErased k n b rest pass w s).bank bk).work = (s.bank bk).work := by
  unfold formatBlockErased
  split <;> exact handOver_work ..

theorem takeVolumeErase_work (k : BankId) (pass : Bool) (bk : BankId) (s : State) :
    ((takeVolumeErase k pass s).bank bk).work = (s.bank bk).work := by
  have hbump : ((s.bumpIf pass .erases).bank bk).work = (s.bank bk).work := by
    rw [bumpIf_eq]; cases bk <;> rfl
  simp only [takeVolumeErase]
  split
  · exact hbump
  · exact hbump
  · split
    · exact hbump
    · split
      · split
        · exact (formatStartBlocks_work ..).trans ((formatStartBlocks_work ..).trans hbump)
        · exact hbump
      · exact (formatBlockErased_work ..).trans hbump
      · exact hbump

theorem reportErase_work (k : BankId) (c : EraseContext) (pass : Bool) (bk : BankId) (s : State) :
    ((reportErase k c pass s).bank bk).work = (s.bank bk).work := by
  unfold reportErase
  split
  · exact takeEraseResult_work ..
  · exact takeVolumeErase_work ..

/-- The erase context and the suspend-acknowledge timer are cleared, and the bank's state is left (R102, R108). -/
theorem finishErase_work {s : State} {bk : BankId} {c : EraseContext} (pass : Bool)
    (h : (s.bank bk).context = some c) : ((finishErase bk pass s).bank bk).work =
      { state := (s.bank bk).state, active := (s.bank bk).active, context := none, suspendTimer := none } := by
  rw [finishErase_of_context pass h, reportErase_work, endErase_bank pass h]
  rfl

theorem finishErase_context (bk : BankId) (pass : Bool) (s : State) :
    ((finishErase bk pass s).bank bk).context = none := by
  cases h : (s.bank bk).context with
  | none => simp only [finishErase, h]
  | some c => exact congrArg BankWork.context (finishErase_work pass h)

/-! ## ERASES (R179) -/

theorem bumpIf_erases (s : State) (b : Bool) : (s.bumpIf b .erases).counter .erases =
    (if b then saturatingSucc (s.counter .erases) else s.counter .erases) := by
  cases b
  · rfl
  · exact counter_bump s .erases

theorem takeEraseResult_tally (b : BlockRef) (pass : Bool) (s : State) :
    (takeEraseResult b pass s).tally = (s.bumpIf pass .erases).tally := by
  simp only [takeEraseResult]
  split
  · rfl
  · split
    · exact handOver_tally ..
    · exact handOver_tally ..

theorem takeVolumeErase_tally (bk : BankId) (pass : Bool) (s : State) :
    (takeVolumeErase bk pass s).tally = (s.bumpIf pass .erases).tally := by
  simp only [takeVolumeErase]
  split
  · rfl
  · rfl
  · split
    · rfl
    · split
      · split
        · exact tally_of_mgmt ((formatStartBlocks_frame ..).mgmt.trans (formatStartBlocks_frame ..).mgmt)
        · rfl
      · exact tally_of_mgmt (formatBlockErased_frame ..).mgmt
      · rfl

theorem bumpIf_tally_congr {s t : State} (h : t.mgmt = s.mgmt) (b : Bool) (c : Counter) :
    (t.bumpIf b c).tally = (s.bumpIf b c).tally := by
  cases b
  · exact tally_of_mgmt h
  · refine tally_of_mgmt ?_
    rw [State.bumpIf, if_pos rfl, State.bump, h]
    rfl

/-- A pass is counted once, whoever asked for the erase (R145, R149, R179). -/
theorem finishErase_tally {s : State} {bk : BankId} {c : EraseContext} (pass : Bool)
    (h : (s.bank bk).context = some c) : (finishErase bk pass s).tally = (s.bumpIf pass .erases).tally := by
  rw [finishErase_of_context pass h, reportErase]
  refine Eq.trans ?_ (bumpIf_tally_congr (endErase_frame pass h).mgmt pass .erases)
  split
  · exact takeEraseResult_tally ..
  · exact takeVolumeErase_tally ..

theorem finishErase_tally_fail (bk : BankId) (s : State) : (finishErase bk false s).tally = s.tally := by
  cases h : (s.bank bk).context with
  | none => simp only [finishErase, h]
  | some c => exact finishErase_tally false h

end Sys2Proof.Machine
end

section
/-! PROOF. The timeouts of programs and erases (R108, R109) and the completion of erases (R100, R102, R105), with what
the block manager and the volume engine then ask (R86, R145, R146). -/

-- In order: as one text the package would start more threads than memory has stacks for.
set_option Elab.async false

namespace Sys2Proof.Machine

/-! ## A bank reset among the choices of the banks (R110) -/

theorem kickBank_bank_of_resetting {s : State} {bk : BankId} (h : (s.bank bk).state = .resetting) (other : BankId) :
    (kickBank other s).bank bk = s.bank bk := by
  by_cases hbk : bk = other
  · rw [← hbk, kickBank_of_busy (.inr (.inr (.inr h)))]
  · exact (kickBank_oneBank other s).bank_ne hbk

theorem kickBanks_bank_of_resetting {s : State} {bk : BankId} (h : (s.bank bk).state = .resetting) :
    (kickBanks s).bank bk = s.bank bk := by
  have hfirst := kickBank_bank_of_resetting h .a
  rw [kickBanks, kickBank_bank_of_resetting (by rw [hfirst]; exact h), hfirst]

theorem inReset_of_besideMover {k x : BankCtl} {timeout : Nat} (h : x.besideMover = k.besideMover)
    (hk : k.inReset timeout) : x.inReset timeout ∧ x.context = k.context := by
  have hinReset : ∀ y : BankCtl, y.besideMover.inReset timeout ↔ y.inReset timeout := fun _ => Iff.rfl
  have hcontext : ∀ y : BankCtl, y.besideMover.context = y.context := fun _ => rfl
  refine ⟨?_, ?_⟩
  · rw [← hinReset, h, hinReset]
    exact hk
  · rw [← hcontext, h, hcontext]

/-- The arbiter and the banks leave a bank reset in progress alone. -/
theorem settle_inReset {s : State} {bk : BankId} {timeout : Nat} (h : (s.bank bk).inReset timeout) :
    ((settle s).bank bk).inReset timeout ∧ ((settle s).bank bk).context = (s.bank bk).context := by
  have hgranted := inReset_of_besideMover (bank_of_besideMover (arbitrate_besideMover 32 s) bk) h
  have hkick : (settle s).bank bk = (arbitrate 32 s).bank bk := kickBanks_bank_of_resetting hgranted.1.1
  rw [hkick]
  exact hgranted

theorem beginBankReset_bank (bk : BankId) (s : State) :
    (beginBankReset bk s).bank bk = (s.bank bk).beginReset s.mgmt.params.programTimeout := setBank_bank ..

/-! ## The program timeout (R109, R111) -/

theorem halfDone_tally (bk : BankId) (c : ReqClass) (cut : Bool) (slot : SlotRef) (h : Fin 256) (v : HalfWord)
    (s : State) : (halfDone bk c cut slot h v s).tally = s.tally := tally_of_mgmt (halfDone_frame ..).mgmt

theorem timedOut_failures (bk : BankId) (c : ReqClass) (slot : SlotRef) (h : Fin 256) (v : HalfWord) (s : State) :
    (timedOut bk c slot h v s).counter .programFailures = saturatingSucc (s.counter .programFailures) := by
  rw [timedOut, counter_of_tally (finishProgram_tally ..), bumpIf_programFailures, counter_of_tally (halfDone_tally ..)]
  rfl

theorem programTimeout_of_settings {s t : State} (h : t.settings = s.settings) :
    t.mgmt.params.programTimeout = s.mgmt.params.programTimeout := congrArg Params.programTimeout (params_of_settings h)

/-- Settles O32: the program's failure is reported before the bank reset begins. -/
theorem programTimeoutFailsTheProgram : Obligations.ProgramTimeoutFailsTheProgram := by
  intro s bk
  refine ⟨fun c slot h v hactive => ?_, exec_programTimeout_of_no_program⟩
  let u := timedOut bk c slot h v s
  let x := if (s.bank bk).state = .suspended then finishErase bk false u else u
  have hsettings : x.settings = s.settings := by
    refine Eq.trans ?_ (timedOut_settings bk c slot h v s)
    show (if _ then _ else _ : State).settings = _
    split
    · exact finishErase_settings ..
    · rfl
  have hreset : ((beginBankReset bk x).bank bk).inReset s.mgmt.params.programTimeout := by
    rw [beginBankReset_bank, programTimeout_of_settings hsettings]
    exact beginReset_inReset ..
  obtain ⟨hinReset, hcontext⟩ := settle_inReset hreset
  refine ⟨_, exec_programTimeout_of_program hactive, hinReset, ?failures, fun hsuspended => ?ends, fun hstate => ?half⟩
  case failures =>
    have htally : x.tally = u.tally := by
      show (if _ then _ else _ : State).tally = _
      split
      · exact finishErase_tally_fail ..
      · rfl
    have hbegin : (beginBankReset bk x).tally = x.tally := tally_of_mgmt (setBank_mgmt ..)
    rw [counter_of_tally ((settle_tally _).trans (hbegin.trans htally)), timedOut_failures]
  case ends =>
    refine hcontext.trans ?_
    rw [beginBankReset_bank, show x = finishErase bk false u from if_pos hsuspended]
    exact finishErase_context ..
  case half =>
    have hbase : (settle (beginBankReset bk (if (s.bank bk).state = .suspended then finishErase bk false u else u))).base =
        (halfDone bk c true slot h v s).base := by
      rw [if_neg hstate, settle_beginBankReset_base]
      exact finishProgram_base ..
    refine ⟨?_, fun other a hne => (flashByte_of_base hbase other a).trans (flashByte_halfDone c true v s hne)⟩
    have hleaves := half_halfDone bk c true slot h v s
    rwa [← half_of_base hbase] at hleaves

/-! ## What the block manager takes and asks (R86) -/

theorem bumpIf_record (s : State) (b : Bool) (c : Counter) (x : BlockRef) : (s.bumpIf b c).record x = s.record x := by
  rw [bumpIf_eq]; rfl

/-- R86: the table takes the count, and FRESH or RETIRED is handed to the block's bank. -/
theorem takeEraseResult_of_record {s : State} {b : BlockRef} {r : BlockRecord} (pass : Bool)
    (h : s.record b = some r) :
    (takeEraseResult b pass s).record b = some { r with
      eraseCount := if pass then nextCount r.eraseCount else r.eraseCount, claimed := 0, live := 0 } ∧
    ((takeEraseResult b pass s).bank (BlockRef.bank b)).asks .descriptor
      (if pass ∧ r.condemned = false then
        .descriptor b (.fresh (nextCount r.eraseCount)) (DescProgram.fresh (nextCount r.eraseCount)).start
      else .descriptor b (.retired (if pass then nextCount r.eraseCount else r.eraseCount)) .read) := by
  let f : BlockRecord → BlockRecord := fun r' => { r' with
    eraseCount := if pass then nextCount r.eraseCount else r.eraseCount, claimed := 0, live := 0 }
  let u := (s.bumpIf pass .erases).modifyRecord b f
  have hu : u.record b = some (f r) := by
    rw [record_modifyRecord, if_pos rfl, bumpIf_record, h]
    rfl
  have hrecord : ∀ c op, (handOver (BlockRef.bank b) c op u).record b = some (f r) := fun c op => by
    rw [State.record, (handOver_oneBank ..).frame.blocks]
    exact hu
  have hfound : (s.bumpIf pass .erases).record b = some r := (bumpIf_record ..).trans h
  by_cases hfresh : pass = true ∧ r.condemned = false
  · obtain ⟨rfl, hcondemned⟩ := hfresh
    have htake : takeEraseResult b true s = handOver (BlockRef.bank b) .descriptor
        (.descriptor b (.fresh (nextCount r.eraseCount)) (DescProgram.fresh (nextCount r.eraseCount)).start) u := by
      simp only [takeEraseResult, hfound, hcondemned]
      rfl
    rw [htake]
    refine ⟨hrecord .descriptor _, ?_⟩
    rw [if_pos ⟨rfl, hcondemned⟩]
    exact handOver_asks _ _ _ (by decide)
  · have hnot : ¬ (pass && !r.condemned) = true := fun hx => by
      rw [Bool.and_eq_true, Bool.not_eq_true'] at hx
      exact hfresh hx
    have htake : takeEraseResult b pass s = handOver (BlockRef.bank b) .descriptor
        (.descriptor b (.retired (if pass then nextCount r.eraseCount else r.eraseCount)) .read) u := by
      unfold takeEraseResult
      dsimp only
      rw [hfound]
      exact if_neg hnot
    rw [htake]
    refine ⟨hrecord .descriptor _, ?_⟩
    rw [if_neg hfresh]
    exact handOver_asks _ _ _ (by decide)

theorem finishErase_of_manager {s : State} {bk : BankId} {c : EraseContext} {r : BlockRecord} (pass : Bool)
    (hcontext : (s.bank bk).context = some c) (hrequester : c.requester = .blockManager)
    (h : s.record c.block = some r) :
    (finishErase bk pass s).record c.block = some { r with
      eraseCount := if pass then nextCount r.eraseCount else r.eraseCount, claimed := 0, live := 0 } ∧
    ((finishErase bk pass s).bank (BlockRef.bank c.block)).asks .descriptor
      (if pass ∧ r.condemned = false then
        .descriptor c.block (.fresh (nextCount r.eraseCount)) (DescProgram.fresh (nextCount r.eraseCount)).start
      else .descriptor c.block (.retired (if pass then nextCount r.eraseCount else r.eraseCount)) .read) := by
  have hrecord : (endErase bk pass s).record c.block = some r := by
    rw [State.record, (endErase_frame pass hcontext).blocks]
    exact h
  rw [finishErase_of_context pass hcontext, reportErase, hrequester]
  exact takeEraseResult_of_record pass hrecord

end Sys2Proof.Machine
end

section
/-! PROOF. The failed and the completed erase (R102, R105, R108, R109), for the block manager and for the volume
engine. -/

-- In order: as one text the package would start more threads than memory has stacks for.
set_option Elab.async false

namespace Sys2Proof.Machine

/-! ## The volume engine's report (R145, R146, R149) -/

theorem bumpIf_engine (s : State) (b : Bool) (c : Counter) : (s.bumpIf b c).engine = s.engine := by
  rw [bumpIf_eq]

theorem takeVolumeErase_of_abandoned {s : State} {w : FormatWork} (bk : BankId) (pass : Bool)
    (h : s.engine = .format w) (habandoned : w.abandoned = true) :
    takeVolumeErase bk pass s = s.bumpIf pass .erases := by
  have hw : (s.bumpIf pass .erases).engine = .format w := (bumpIf_engine ..).trans h
  simp only [takeVolumeErase, hw, habandoned, if_true]

theorem takeVolumeErase_of_volume {s : State} {w : FormatWork} (bk : BankId) (pass : Bool)
    (h : s.engine = .format w) (habandoned : w.abandoned = false) (hstage : w.stage = .erasingVolume) :
    takeVolumeErase bk pass s = if pass then
        formatStartBlocks .b (formatStartBlocks .a
          ((s.bumpIf pass .erases).setEngine (.format { w with stage := .blocks })))
      else failFormat (s.bumpIf pass .erases) := by
  have hw : (s.bumpIf pass .erases).engine = .format w := (bumpIf_engine ..).trans h
  simp only [takeVolumeErase, hw, habandoned, hstage]
  rfl

theorem takeVolumeErase_of_block {s : State} {w : FormatWork} {bk : BankId} {n : Nat} {b : BlockRef}
    {rest : List BlockRef} (pass : Bool) (h : s.engine = .format w) (habandoned : w.abandoned = false)
    (hstage : w.stage = .blocks) (hphase : (w.bank bk).phase = .erasing n (b :: rest)) :
    takeVolumeErase bk pass s = formatBlockErased bk n b rest pass w (s.bumpIf pass .erases) := by
  have hw : (s.bumpIf pass .erases).engine = .format w := (bumpIf_engine ..).trans h
  simp only [takeVolumeErase, hw, habandoned, hstage, hphase]
  rfl

theorem finishErase_of_volume {s : State} {bk : BankId} {c : EraseContext} (pass : Bool)
    (hcontext : (s.bank bk).context = some c) (hrequester : c.requester = .volumeEngine) :
    finishErase bk pass s = takeVolumeErase bk pass (endErase bk pass s) := by
  rw [finishErase_of_context pass hcontext, reportErase, hrequester]

/-- R146: FRESH with the next count is asked for after a pass, RETIRED with the count after a fail. -/
theorem formatBlockErased_asks (bk : BankId) (n : Nat) (b : BlockRef) (rest : List BlockRef) (w : FormatWork)
    (s : State) :
    ((formatBlockErased bk n b rest true w s).engine =
        .format (w.setBank bk { w.bank bk with phase := .freshing (nextCount n) (b :: rest) }) ∧
      ((formatBlockErased bk n b rest true w s).bank bk).asks .volume
        (.descriptor b (.fresh (nextCount n)) (DescProgram.fresh (nextCount n)).start)) ∧
    (formatBlockErased bk n b rest false w s).engine =
        .format (w.setBank bk { w.bank bk with phase := .retiring n (b :: rest) }) ∧
      ((formatBlockErased bk n b rest false w s).bank bk).asks .volume (.descriptor b (.retired n) .read) :=
  ⟨handOver_setEngine .., handOver_setEngine ..⟩

/-! ## Timeouts (R108, R109) -/

theorem beginBankReset_sameSlot (bk other : BankId) (c : ReqClass) (s : State) :
    BankCtl.sameSlot c (s.bank other) ((beginBankReset bk s).bank other) := by
  by_cases h : other = bk
  · subst h
    rw [beginBankReset_bank]
    cases c <;> rfl
  · rw [(beginBankReset_oneBank bk s).bank_ne h]
    rfl

theorem failErase_frame (bk : BankId) (s : State) : BankFrame (finishErase bk false s) (failErase bk s) :=
  (beginBankReset_oneBank bk _).frame.trans (kickBanks_frame _)

theorem failErase_base (bk : BankId) (s : State) : (failErase bk s).base = (finishErase bk false s).base := by
  rw [failErase, kickBanks_base, beginBankReset_base]

theorem failErase_asks {s : State} {bk other : BankId} {c : ReqClass} {op : ReqOp}
    (h : ((finishErase bk false s).bank other).asks c op) : ((failErase bk s).bank other).asks c op :=
  kickBanks_asks (BankCtl.asks.of_sameSlot h (beginBankReset_sameSlot bk other c _))

theorem failErase_bank (bk : BankId) (s : State) :
    ((failErase bk s).bank bk).inReset s.mgmt.params.programTimeout ∧ ((failErase bk s).bank bk).context = none := by
  have hreset := beginBankReset_bank bk (finishErase bk false s)
  have hbank : (failErase bk s).bank bk =
      ((finishErase bk false s).bank bk).beginReset s.mgmt.params.programTimeout := by
    rw [← programTimeout_of_settings (finishErase_settings bk false s), ← hreset]
    exact kickBanks_bank_of_resetting (congrArg BankCtl.state hreset)
  rw [hbank]
  exact ⟨beginReset_inReset .., finishErase_context ..⟩

theorem flashA_of_base {s t : State} (h : t.base = s.base) : t.flashA = s.flashA := congrArg Base.flashA h

/-- A0's erase timed out ends the format (R145; log 9). -/
theorem failErase_of_volume {s : State} {bk : BankId} {c : EraseContext} {w : FormatWork}
    (hcontext : (s.bank bk).context = some c) (hrequester : c.requester = .volumeEngine) (hw : s.engine = .format w)
    (habandoned : w.abandoned = false) (hstage : w.stage = .erasingVolume) :
    (failErase bk s).engine = .idle ∧ (failErase bk s).service.state = .unformatted ∧
      (failErase bk s).hasFlag .formatFailed = true ∧ PartErased s.flashA (failErase bk s).flashA := by
  have hframe := failErase_frame bk s
  have hengine : (endErase bk false s).engine = .format w := (endErase_frame false hcontext).engine.trans hw
  have hpart := finishErase_partErased hcontext
  have hends : finishErase bk false s = failFormat ((endErase bk false s).bumpIf false .erases) := by
    rw [finishErase_of_volume false hcontext hrequester, takeVolumeErase_of_volume bk false hengine habandoned hstage]
    rfl
  rw [flashA_of_base (failErase_base bk s)]
  rw [hends] at hframe
  exact ⟨hframe.engine, congrArg Service.state hframe.service, (mgmt_hasFlag hframe.mgmt _).trans (by simp [failFormat]),
    hpart⟩

/-- Settles O33: both timeouts are `failErase`. -/
theorem eraseTimeoutsFailTheErase : Obligations.EraseTimeoutsFailTheErase := by
  refine fun s bk => ⟨fun c hcontext hbank => ?_,
    fun hnot => congrArg Host.Outcome.next (if_neg (by simp [hnot])), fun hnot => congrArg Host.Outcome.next (if_neg hnot)⟩
  intro failed
  have hfailed : failed (failErase bk s) := by
    obtain ⟨hreset, hcleared⟩ := failErase_bank bk s
    have hframe := failErase_frame bk s
    refine ⟨hreset, hcleared, fun other a ha => ?bytes, ?erases, fun r hrequester hr => ?manager,
      fun w hrequester hw habandoned => ⟨fun hstage _ => failErase_of_volume hcontext hrequester hw habandoned hstage,
        fun n b rest hstage hphase _ => ?block⟩⟩
    case bytes =>
      exact (flashByte_of_base (failErase_base bk s) other a).trans
        (flashByte_finishErase false hcontext fun h => ha (h.trans hbank))
    case erases =>
      exact erases_of_tally ((tally_of_mgmt hframe.mgmt).trans (finishErase_tally_fail bk s))
    case manager =>
      obtain ⟨hrecord, hasks⟩ := finishErase_of_manager false hcontext hrequester hr
      rw [hbank] at hasks
      refine ⟨?_, failErase_asks hasks⟩
      rw [State.record, hframe.blocks]
      exact hrecord
    case block =>
      have hengine : (endErase bk false s).engine = .format w := (endErase_frame false hcontext).engine.trans hw
      have hends : finishErase bk false s = formatBlockErased bk n b rest false w
          ((endErase bk false s).bumpIf false .erases) := by
        rw [finishErase_of_volume false hcontext hrequester,
          takeVolumeErase_of_block false hengine habandoned hstage hphase]
      obtain ⟨-, -, hasks⟩ := formatBlockErased_asks bk n b rest w ((endErase bk false s).bumpIf false .erases)
      rw [← hends] at hasks
      exact failErase_asks hasks
  exact ⟨fun h => ⟨_, congrArg Host.Outcome.next (if_pos h), hfailed⟩,
    fun h => ⟨_, congrArg Host.Outcome.next (if_pos h), hfailed⟩⟩

end Sys2Proof.Machine
end

section
/-! PROOF. The flash's report that an erase is complete (R100, R102, R105), with step 3 of a format that the pass of
A0's erase begins (R145, R146). -/

-- In order: as one text the package would start more threads than memory has stacks for.
set_option Elab.async false

namespace Sys2Proof.Machine

/-! ## A bank that has become IDLE with a request waiting -/

theorem foldl_earlier_ne_none (l : List (ReqClass × Nat)) {acc : Option (ReqClass × Nat)} (h : acc ≠ none ∨ l ≠ []) :
    l.foldl earlier acc ≠ none := by
  induction l generalizing acc with
  | nil => simpa using h
  | cons x l ih =>
    refine ih (.inl ?_)
    unfold earlier
    split
    · nofun
    · split <;> nofun

theorem oldest_ne_none {k : BankCtl} {p : ReqClass → ReqOp → Bool} {c : ReqClass} {q : Request}
    (hslot : k.slot c = some q) (hp : p c q.op = true) : k.oldest p ≠ none := by
  have hmem : (c, q.moment) ∈ k.waiting p := mem_waiting_iff.mpr ⟨q, hslot, hp, rfl⟩
  rw [oldest_eq, ne_eq, Option.map_eq_none_iff]
  exact foldl_earlier_ne_none _ (.inr (List.ne_nil_of_mem hmem))

theorem beginAction_work (bk : BankId) (c : ReqClass) (a : Action) (s : State) :
    ((beginAction bk c a s).bank bk).context = (s.bank bk).context ∧
      ((beginAction bk c a s).bank bk).suspendTimer = (s.bank bk).suspendTimer := by
  rw [bank_beginAction]
  cases c <;> exact ⟨rfl, rfl⟩

/-- R98: a waiting request goes before an erase, so the choice of an IDLE bank begins none. -/
theorem kickBank_of_request {s : State} {bk : BankId} {c : ReqClass} {op : ReqOp} (hstate : (s.bank bk).state = .idle)
    (h : (s.bank bk).asks c op) : ((kickBank bk s).bank bk).context = (s.bank bk).context ∧
      ((kickBank bk s).bank bk).suspendTimer = (s.bank bk).suspendTimer := by
  obtain ⟨q, hq, -⟩ := h
  cases hactive : (s.bank bk).active with
  | some a =>
    have hnone : kickBank bk s = s := by simp only [kickBank, hactive]
    rw [hnone]
    exact ⟨rfl, rfl⟩
  | none =>
    cases hread : (s.bank bk).hostRead with
    | some x =>
      rw [kickBank_of_hostRead_idle hactive hstate hread]
      exact beginAction_work ..
    | none =>
      obtain ⟨d, hd⟩ := Option.ne_none_iff_exists'.mp (oldest_ne_none (p := fun _ _ => true) hq rfl)
      rw [kickBank_of_idle hactive hstate, chooseIdle_of_oldest hread hd]
      unfold beginClass
      split
      · exact beginAction_work ..
      · exact ⟨rfl, rfl⟩

theorem kickBanks_of_request {s : State} {bk : BankId} {c : ReqClass} {op : ReqOp} (hstate : (s.bank bk).state = .idle)
    (h : (s.bank bk).asks c op) : ((kickBanks s).bank bk).context = (s.bank bk).context ∧
      ((kickBanks s).bank bk).suspendTimer = (s.bank bk).suspendTimer := by
  cases bk
  case a =>
    rw [kickBanks, (kickBank_oneBank .b _).bank_ne (by decide)]
    exact kickBank_of_request hstate h
  case b =>
    have hsame : (kickBank .a s).bank .b = s.bank .b := (kickBank_oneBank .a s).bank_ne (by decide)
    rw [kickBanks, ← hsame]
    exact kickBank_of_request (by rw [hsame]; exact hstate) (by rw [hsame]; exact h)

/-! ## The erase that has completed -/

theorem completeErase_of_running {s : State} {bk : BankId} (pass : Bool) (h : (s.bank bk).eraseRunning = true) :
    completeErase bk pass s = kickBanks (finishErase bk pass (idleBank bk s)) := if_pos h

theorem idleBank_bank (bk : BankId) (s : State) : (idleBank bk s).bank bk = { s.bank bk with state := .idle } :=
  setBank_bank ..

theorem idleBank_frame (bk : BankId) (s : State) : BankFrame s (idleBank bk s) := (setBank_oneBank s bk _).frame

theorem idleBank_context {s : State} {bk : BankId} {c : EraseContext} (h : (s.bank bk).context = some c) :
    ((idleBank bk s).bank bk).context = some c := by
  rw [idleBank_bank]
  exact h

theorem flashByte_idleBank (bk other : BankId) (a : Nat) (s : State) :
    (idleBank bk s).flashByte other a = s.flashByte other a := flashByte_of_base (idleBank_base s bk) other a

/-- ERASES after the report: a pass is counted, whoever asked (R179). -/
theorem finishErase_erases {s : State} {bk : BankId} {c : EraseContext} (pass : Bool)
    (h : (s.bank bk).context = some c) : (finishErase bk pass (idleBank bk s)).counter .erases =
      if pass then saturatingSucc (s.counter .erases) else s.counter .erases := by
  rw [erases_of_tally (finishErase_tally pass (idleBank_context h)), bumpIf_erases,
    erases_of_tally (tally_of_mgmt (idleBank_frame bk s).mgmt)]

/-- The block manager's clause of O30. -/
theorem completeErase_of_manager {s : State} {bk : BankId} {c : EraseContext} {r : BlockRecord} (pass : Bool)
    (hcontext : (s.bank bk).context = some c) (hrequester : c.requester = .blockManager)
    (hbank : BlockRef.bank c.block = bk) (hr : s.record c.block = some r) :
    ((kickBanks (finishErase bk pass (idleBank bk s))).bank bk).context = none ∧
    ((kickBanks (finishErase bk pass (idleBank bk s))).bank bk).suspendTimer = none ∧
    (kickBanks (finishErase bk pass (idleBank bk s))).record c.block = some { r with
      eraseCount := if pass then nextCount r.eraseCount else r.eraseCount, claimed := 0, live := 0 } ∧
    ((kickBanks (finishErase bk pass (idleBank bk s))).bank bk).asks .descriptor
      (if pass ∧ r.condemned = false then
        .descriptor c.block (.fresh (nextCount r.eraseCount)) (DescProgram.fresh (nextCount r.eraseCount)).start
      else .descriptor c.block (.retired (if pass then nextCount r.eraseCount else r.eraseCount)) .read) := by
  have hidle : (idleBank bk s).record c.block = some r := by
    rw [State.record, (idleBank_frame bk s).blocks]
    exact hr
  obtain ⟨hrecord, hasks⟩ := finishErase_of_manager pass (idleBank_context hcontext) hrequester hidle
  rw [hbank] at hasks
  have hwork := finishErase_work pass (idleBank_context hcontext)
  have hstate : ((finishErase bk pass (idleBank bk s)).bank bk).state = .idle :=
    (congrArg BankWork.state hwork).trans (congrArg BankCtl.state (idleBank_bank bk s))
  obtain ⟨hcleared, htimer⟩ := kickBanks_of_request hstate hasks
  refine ⟨hcleared.trans (congrArg BankWork.context hwork), htimer.trans (congrArg BankWork.suspendTimer hwork), ?_,
    kickBanks_asks hasks⟩
  rw [State.record, (kickBanks_frame _).blocks]
  exact hrecord

/-! ## Step 3 of a format begins (R145, R146) -/

/-- The blocks of a bank that step 3 erases: those not read as RETIRED (R146). -/
def FormatBank.todo (x : FormatBank) : List BlockRef := (x.known.filter fun p => !p.2.1).map Prod.fst

/-- A bank's work as step 3 begins: RETIRED blocks are made as read, and the first other one is erased (R146). -/
def FormatWork.startedBank (w : FormatWork) (k : BankId) : FormatBank :=
  { known := (w.bank k).known
    made := ((w.bank k).known.filter fun p => p.2.1).map fun p => (p.1, madeRecord .retired (p.2.2.getD 0))
    phase := match (w.bank k).todo with
      | [] => .finished
      | b :: rest => .erasing (w.countFor b) (b :: rest) }

theorem formatStartBlocks_of_absent {s : State} {w : FormatWork} {k : BankId} (h : s.engine = .format w)
    (hphase : (w.bank k).phase = .absent) : formatStartBlocks k s = s := by
  simp only [formatStartBlocks, h, hphase, if_true]

theorem formatStartBlocks_of_fitted {s : State} {w : FormatWork} {k : BankId} (h : s.engine = .format w)
    (hphase : (w.bank k).phase ≠ .absent) : formatStartBlocks k s =
      match (w.bank k).todo with
      | [] => s.setEngine (.format (w.setBank k (w.startedBank k)))
      | b :: _ => handErase { block := b, requester := .volumeEngine }
          (s.setEngine (.format (w.setBank k (w.startedBank k)))) := by
  simp only [formatStartBlocks, h, hphase, if_false]
  rw [show ((w.bank k).known.filter fun p => !p.2.1).map Prod.fst = (w.bank k).todo from rfl, FormatWork.startedBank]
  cases (w.bank k).todo with
  | nil => cases k <;> rfl
  | cons b rest => cases k <;> rfl

theorem mem_known_of_todo {x : FormatBank} {b : BlockRef} (h : b ∈ x.todo) : ∃ p ∈ x.known, p.1 = b := by
  obtain ⟨p, hp, rfl⟩ := List.mem_map.mp h
  exact ⟨p, (List.mem_filter.mp hp).1, rfl⟩

theorem handErase_erase {r : EraseRequest} {bk : BankId} (h : BlockRef.bank r.block = bk) (s : State) :
    ((handErase r s).bank bk).erase = some r := by
  subst h
  simp only [handErase]
  rw [setBank_bank]

/-- Step 3 on one bank, whose blocks are its own: its work, its erase slot, and nothing of the other bank. -/
theorem formatStartBlocks_starts {s : State} {w : FormatWork} {k : BankId} (h : s.engine = .format w)
    (hphase : (w.bank k).phase ≠ .absent) (hown : ∀ p ∈ (w.bank k).known, BlockRef.bank p.1 = k) :
    (formatStartBlocks k s).engine = .format (w.setBank k (w.startedBank k)) ∧
    (∀ b rest, (w.bank k).todo = b :: rest →
      ((formatStartBlocks k s).bank k).erase = some { block := b, requester := .volumeEngine }) ∧
    ∀ other, other ≠ k → (formatStartBlocks k s).bank other = s.bank other := by
  rw [formatStartBlocks_of_fitted h hphase]
  cases htodo : (w.bank k).todo with
  | nil => exact ⟨rfl, nofun, fun _ _ => rfl⟩
  | cons b rest =>
    have hbank : BlockRef.bank b = k := by
      obtain ⟨p, hp, rfl⟩ := mem_known_of_todo (x := w.bank k) (b := b) (htodo ▸ List.mem_cons_self)
      exact hown p hp
    have hone := handErase_oneBank { block := b, requester := .volumeEngine }
      (s.setEngine (.format (w.setBank k (w.startedBank k))))
    refine ⟨hone.frame.engine, fun b' rest' hcons => ?_, fun other hne => ?_⟩
    · obtain ⟨rfl, rfl⟩ := List.cons.inj hcons
      exact handErase_erase hbank _
    · exact hone.bank_ne fun heq => hne (heq.trans hbank)

/-- Step 3 on both banks: the work and the erase slot of each fitted bank. -/
theorem formatStartBlocks_both {s : State} {w : FormatWork} (h : s.engine = .format w)
    (hown : ∀ k p, p ∈ (w.bank k).known → BlockRef.bank p.1 = k) :
    ∃ w', (formatStartBlocks .b (formatStartBlocks .a s)).engine = .format w' ∧ w'.stage = w.stage ∧
      ∀ k, (w.bank k).phase ≠ .absent → w'.bank k = w.startedBank k ∧
        ∀ b rest, (w.bank k).todo = b :: rest →
          ((formatStartBlocks .b (formatStartBlocks .a s)).bank k).erase =
            some { block := b, requester := .volumeEngine } := by
  -- bank A first: the work it leaves, with bank B's as it was
  obtain ⟨w1, hw1, hstage1, hb1, hstarted1, hknown1, hfirst⟩ : ∃ w1, (formatStartBlocks .a s).engine = .format w1 ∧
      w1.stage = w.stage ∧ w1.bank .b = w.bank .b ∧ w1.startedBank .b = w.startedBank .b ∧
      ((w.bank .a).phase ≠ .absent → w1.bank .a = w.startedBank .a) ∧
      ((w.bank .a).phase ≠ .absent → ∀ b rest, (w.bank .a).todo = b :: rest →
        ((formatStartBlocks .a s).bank .a).erase = some { block := b, requester := .volumeEngine }) := by
    by_cases ha : (w.bank .a).phase = .absent
    · rw [formatStartBlocks_of_absent h ha]
      exact ⟨w, h, rfl, rfl, rfl, fun hne => absurd ha hne, fun hne => absurd ha hne⟩
    · obtain ⟨hengine, herase, -⟩ := formatStartBlocks_starts h ha (hown .a)
      exact ⟨_, hengine, rfl, rfl, rfl, fun _ => rfl, fun _ => herase⟩
  by_cases hb : (w.bank .b).phase = .absent
  · rw [formatStartBlocks_of_absent hw1 (by rw [hb1]; exact hb)]
    refine ⟨w1, hw1, hstage1, fun k hk => ?_⟩
    cases k
    · exact ⟨hknown1 hk, hfirst hk⟩
    · exact absurd hb hk
  · obtain ⟨hengine, herase, hother⟩ := formatStartBlocks_starts hw1 (k := .b) (by rw [hb1]; exact hb)
      (by rw [hb1]; exact hown .b)
    rw [hb1] at herase
    refine ⟨_, hengine, hstage1, fun k hk => ?_⟩
    cases k
    · refine ⟨hknown1 hk, fun b rest hcons => ?_⟩
      rw [hother .a (by decide)]
      exact hfirst hk b rest hcons
    · exact ⟨hstarted1, herase⟩

theorem mem_startedBank_made {w : FormatWork} {k : BankId} {p : BlockRef × BlockRecord} :
    p ∈ (w.startedBank k).made ↔ ∃ q ∈ (w.bank k).known, q.2.1 = true ∧
      p = (q.1, { state := .retired, eraseCount := q.2.2.getD 0, claimed := 0, live := 0, condemned := false }) := by
  simp only [FormatWork.startedBank, madeRecord, List.mem_map, List.mem_filter, and_assoc, eq_comm (a := p)]

theorem startedBank_phase_of_retired {w : FormatWork} {k : BankId} (h : ∀ q ∈ (w.bank k).known, q.2.1 = true) :
    (w.startedBank k).phase = .finished := by
  have hnone : (w.bank k).todo = [] := by
    rw [FormatBank.todo, List.map_eq_nil_iff, List.filter_eq_nil_iff]
    exact fun q hq => by simp [h q hq]
  rw [FormatWork.startedBank, hnone]

theorem startedBank_phase_of_cons {w : FormatWork} {k : BankId} {b : BlockRef} {rest : List BlockRef}
    (h : (w.bank k).todo = b :: rest) : (w.startedBank k).phase = .erasing (w.countFor b) (b :: rest) := by
  rw [FormatWork.startedBank, h]

/-- What the pass of A0's erase makes of the format's work (R145). -/
theorem completeErase_of_volume_pass {s : State} {w : FormatWork} {bk : BankId} {c : EraseContext}
    (hcontext : (s.bank bk).context = some c) (hrequester : c.requester = .volumeEngine) (hw : s.engine = .format w)
    (habandoned : w.abandoned = false) (hstage : w.stage = .erasingVolume)
    (hown : ∀ k p, p ∈ (w.bank k).known → BlockRef.bank p.1 = k) :
    ∃ w', (finishErase bk true s).engine = .format w' ∧ w'.stage = .blocks ∧
      ∀ k, (w.bank k).phase ≠ .absent → w'.bank k = w.startedBank k ∧
        ∀ b rest, (w.bank k).todo = b :: rest →
          ((finishErase bk true s).bank k).erase = some { block := b, requester := .volumeEngine } := by
  have hengine : (endErase bk true s).engine = .format w := (endErase_frame true hcontext).engine.trans hw
  have hbank : ∀ k, ({ w with stage := .blocks } : FormatWork).bank k = w.bank k := fun k => by cases k <;> rfl
  have hstarted : ∀ k, ({ w with stage := .blocks } : FormatWork).startedBank k = w.startedBank k := fun k => by
    cases k <;> rfl
  obtain ⟨w', hw', hstage', hrest⟩ := formatStartBlocks_both
    (s := ((endErase bk true s).bumpIf true .erases).setEngine (.format { w with stage := .blocks }))
    (w := { w with stage := .blocks }) rfl (fun k p hp => hown k p (hbank k ▸ hp))
  rw [finishErase_of_volume true hcontext hrequester, takeVolumeErase_of_volume bk true hengine habandoned hstage,
    if_pos rfl]
  refine ⟨w', hw', hstage', fun k hk => ?_⟩
  obtain ⟨hfinal, herase⟩ := hrest k (by rw [hbank]; exact hk)
  exact ⟨hfinal.trans (hstarted k), fun b rest hcons => herase b rest (by rw [hbank]; exact hcons)⟩

theorem finishErase_of_volume_fail {s : State} {w : FormatWork} {bk : BankId} {c : EraseContext}
    (hcontext : (s.bank bk).context = some c) (hrequester : c.requester = .volumeEngine) (hw : s.engine = .format w)
    (habandoned : w.abandoned = false) (hstage : w.stage = .erasingVolume) :
    (finishErase bk false s).engine = .idle ∧
      (finishErase bk false s).service = { s.service with state := .unformatted } ∧
      (finishErase bk false s).hasFlag .formatFailed = true := by
  have hframe := endErase_frame false hcontext
  have hends : finishErase bk false s = failFormat ((endErase bk false s).bumpIf false .erases) := by
    rw [finishErase_of_volume false hcontext hrequester,
      takeVolumeErase_of_volume bk false (hframe.engine.trans hw) habandoned hstage]
    rfl
  have hservice : (failFormat ((endErase bk false s).bumpIf false .erases)).service =
      { (endErase bk false s).service with state := .unformatted } := rfl
  rw [hends, hservice, hframe.service]
  exact ⟨rfl, rfl, by simp [failFormat]⟩

theorem finishErase_of_abandoned {s : State} {w : FormatWork} {bk : BankId} {c : EraseContext} (pass : Bool)
    (hcontext : (s.bank bk).context = some c) (hrequester : c.requester = .volumeEngine) (hw : s.engine = .format w)
    (habandoned : w.abandoned = true) : (finishErase bk pass s).engine = s.engine ∧
      (finishErase bk pass s).service = s.service ∧ (finishErase bk pass s).blocks = s.blocks := by
  have hframe := endErase_frame pass hcontext
  rw [finishErase_of_volume pass hcontext hrequester,
    takeVolumeErase_of_abandoned bk pass (hframe.engine.trans hw) habandoned, bumpIf_eq]
  exact ⟨hframe.engine, hframe.service, hframe.blocks⟩

theorem finishErase_of_block {s : State} {w : FormatWork} {bk : BankId} {c : EraseContext} {n : Nat} {b : BlockRef}
    {rest : List BlockRef} (pass : Bool) (hcontext : (s.bank bk).context = some c)
    (hrequester : c.requester = .volumeEngine) (hw : s.engine = .format w) (habandoned : w.abandoned = false)
    (hstage : w.stage = .blocks) (hphase : (w.bank bk).phase = .erasing n (b :: rest)) :
    finishErase bk pass s =
      formatBlockErased bk n b rest pass w ((endErase bk pass s).bumpIf pass .erases) := by
  rw [finishErase_of_volume pass hcontext hrequester,
    takeVolumeErase_of_block pass ((endErase_frame pass hcontext).engine.trans hw) habandoned hstage hphase]

/-- The volume engine's clause for a data block of step 3 (R146). -/
theorem finishErase_of_block_asks {s : State} {w : FormatWork} {bk : BankId} {c : EraseContext} {n : Nat} {b : BlockRef}
    {rest : List BlockRef} (pass : Bool) (hcontext : (s.bank bk).context = some c)
    (hrequester : c.requester = .volumeEngine) (hw : s.engine = .format w) (habandoned : w.abandoned = false)
    (hstage : w.stage = .blocks) (hphase : (w.bank bk).phase = .erasing n (b :: rest)) :
    ∃ q, ((finishErase bk pass s).bank bk).volume = some q ∧
      (pass = true → q.op = .descriptor b (.fresh (nextCount n)) (DescProgram.fresh (nextCount n)).start ∧
        (finishErase bk pass s).engine =
          .format (w.setBank bk { w.bank bk with phase := .freshing (nextCount n) (b :: rest) })) ∧
      (pass = false → q.op = .descriptor b (.retired n) .read ∧
        (finishErase bk pass s).engine =
          .format (w.setBank bk { w.bank bk with phase := .retiring n (b :: rest) })) := by
  rw [finishErase_of_block pass hcontext hrequester hw habandoned hstage hphase]
  obtain ⟨⟨hfresh, q, hq, hop⟩, hretired, q', hq', hop'⟩ :=
    formatBlockErased_asks bk n b rest w ((endErase bk pass s).bumpIf pass .erases)
  cases pass
  · exact ⟨q', hq', nofun, fun _ => ⟨hop', hretired⟩⟩
  · exact ⟨q, hq, fun _ => ⟨hop, hfresh⟩, nofun⟩

/-- Settles O30: `finishErase` by the requester of the erase, on the bank that has become IDLE. -/
theorem eraseCompleteIsTaken : Obligations.EraseCompleteIsTaken := by
  refine fun s bk pass => ⟨fun c r hrunning hcontext hrequester hbank hr => ?manager,
    fun c w hrunning hcontext hrequester hbank hw => ?engine,
    fun hnot => ⟨congrArg Host.Outcome.next (if_neg (by simp [hnot])), congrArg Host.Outcome.next (if_neg (by simp [hnot]))⟩⟩
  all_goals
    have hexec : exec (.eraseComplete bk pass) s = .next (kickBanks (finishErase bk pass (idleBank bk s))) :=
      congrArg Host.Outcome.next (completeErase_of_running pass hrunning)
    have hidle := idleBank_context hcontext
    have hframe := idleBank_frame bk s
  case manager =>
    obtain ⟨hcleared, htimer, hrecord, hasks⟩ := completeErase_of_manager pass hcontext hrequester hbank hr
    have hbytes : ∀ other a, (kickBanks (finishErase bk pass (idleBank bk s))).flashByte other a =
        (finishErase bk pass (idleBank bk s)).flashByte other a := flashByte_of_base (kickBanks_base _)
    refine ⟨_, hexec, hexec, hcleared, htimer, fun hpass a ha => ?pass, fun other a ha => ?others, hrecord, ?count, hasks⟩
    case pass =>
      subst hpass
      rw [hbytes]
      exact hbank ▸ flashByte_finishErase_pass hidle ha
    case others =>
      rw [hbytes, flashByte_finishErase pass hidle fun h => ha (h.trans hbank), flashByte_idleBank]
    case count => exact (erases_of_tally (tally_of_mgmt (kickBanks_frame _).mgmt)).trans (finishErase_erases pass hcontext)
  case engine =>
    have hw' : (idleBank bk s).engine = .format w := hframe.engine.trans hw
    refine ⟨_, hexec, hexec, finishErase_erases pass hcontext, fun hpass a ha => ?pass, fun habandoned => ?abandoned,
      fun habandoned hstage hblock => ⟨fun hpass hown => ?begins, fun hpass => ?fails⟩,
      fun n b rest habandoned hstage hphase _ =>
        finishErase_of_block_asks pass hidle hrequester hw' habandoned hstage hphase⟩
    case pass =>
      subst hpass
      exact hbank ▸ flashByte_finishErase_pass hidle ha
    case abandoned =>
      obtain ⟨hengine, hservice, hblocks⟩ := finishErase_of_abandoned pass hidle hrequester hw' habandoned
      exact ⟨hengine.trans hframe.engine, hservice.trans hframe.service, hblocks.trans hframe.blocks⟩
    case begins =>
      subst hpass
      obtain ⟨w', hfinal, hstage', hrest⟩ := completeErase_of_volume_pass hidle hrequester hw' habandoned hstage hown
      refine ⟨w', hfinal, hstage', fun k hk => ?_⟩
      obtain ⟨hk', herase⟩ := hrest k hk
      rw [hk']
      exact ⟨fun p => mem_startedBank_made, startedBank_phase_of_retired,
        fun b rest hcons => ⟨startedBank_phase_of_cons hcons, herase b rest hcons⟩⟩
    case fails =>
      subst hpass
      obtain ⟨hengine, hservice, hflag⟩ := finishErase_of_volume_fail hidle hrequester hw' habandoned hstage
      rw [hframe.service] at hservice
      have hpart := finishErase_partErased hidle
      rw [hframe.flashA] at hpart
      exact ⟨hengine, hservice, hflag, hpart⟩

end Sys2Proof.Machine
end

section
/-! PROOF. The reclaim triggers (R79 to R83): the block that each one chooses. -/

-- In order: as one text the package would start more threads than memory has stacks for.
set_option Elab.async false

namespace Sys2Proof.Machine

/-! ## The element with the least key -/

theorem leastBy_eq_none {α : Type} {key : α → Nat} {l : List α} : leastBy key l = none ↔ l = [] := by
  cases l with
  | nil => exact iff_of_true rfl rfl
  | cons x l =>
    refine iff_of_false ?_ nofun
    unfold leastBy
    split
    · nofun
    · split <;> nofun

theorem leastBy_spec {α : Type} {key : α → Nat} {l : List α} {x : α} (h : leastBy key l = some x) :
    x ∈ l ∧ ∀ y ∈ l, key x ≤ key y := by
  induction l generalizing x with
  | nil => cases h
  | cons z l ih =>
    unfold leastBy at h
    split at h
    case h_1 hnone =>
      obtain rfl := Option.some.inj h
      rw [leastBy_eq_none.mp hnone]
      simp
    case h_2 w hw =>
      obtain ⟨hmem, hle⟩ := ih hw
      split at h
      case isTrue hlt =>
        obtain rfl := Option.some.inj h
        refine ⟨List.mem_cons_of_mem _ hmem, fun y hy => ?_⟩
        rcases List.mem_cons.mp hy with rfl | hy
        · omega
        · exact hle y hy
      case isFalse hge =>
        obtain rfl := Option.some.inj h
        refine ⟨List.mem_cons_self, fun y hy => ?_⟩
        rcases List.mem_cons.mp hy with rfl | hy
        · exact Nat.le_refl _
        · have := hle y hy
          omega

theorem exists_leastBy {α : Type} (key : α → Nat) {l : List α} {y : α} (hy : y ∈ l) :
    ∃ x, leastBy key l = some x ∧ x ∈ l ∧ key x ≤ key y := by
  cases h : leastBy key l with
  | none => rw [leastBy_eq_none.mp h] at hy; cases hy
  | some x => exact ⟨x, rfl, (leastBy_spec h).1, (leastBy_spec h).2 y hy⟩

/-- An element whose key lies below every other's is the least. -/
theorem leastBy_eq_some {α : Type} {key : α → Nat} {l : List α} {x : α} (hx : x ∈ l)
    (hmin : ∀ y ∈ l, y ≠ x → key x < key y) : leastBy key l = some x := by
  obtain ⟨y, hy, hmem, hle⟩ := exists_leastBy key hx
  by_cases h : y = x
  · rw [hy, h]
  · have := hmin y hmem h
    omega

/-! ## The three triggers -/

theorem mem_fullBlocks {s : State} {p : BlockRef × BlockRecord} :
    p ∈ s.fullBlocks ↔ p ∈ s.blocks.records ∧ p.2.state = .full ∧ s.blocks.awaiting ≠ some p.1 := by
  simp only [State.fullBlocks, State.recordsIn, List.mem_filter, bne_iff_ne, beq_iff_eq, and_assoc]

theorem condemnedVictim_eq_none {s : State} (h : ∀ q ∈ s.fullBlocks, q.2.condemned = false) :
    s.condemnedVictim = none := by
  rw [State.condemnedVictim, Option.map_eq_none_iff, leastBy_eq_none, List.filter_eq_nil_iff]
  exact fun q hq => by simp [h q hq]

/-- R80. -/
theorem triggered_of_condemned {s : State} {p : BlockRef × BlockRecord} (hp : p ∈ s.fullBlocks)
    (hcondemned : p.2.condemned = true) :
    ∃ b, s.triggered = some (.condemned, b) ∧ b ≤ p.1 ∧ ∃ r, (b, r) ∈ s.fullBlocks ∧ r.condemned = true := by
  obtain ⟨x, hx, hmem, hle⟩ := exists_leastBy (fun q : BlockRef × BlockRecord => q.1.val)
    (l := s.fullBlocks.filter fun q => q.2.condemned) (y := p) (List.mem_filter.mpr ⟨hp, hcondemned⟩)
  obtain ⟨hfull, hxc⟩ := List.mem_filter.mp hmem
  have hvictim : s.condemnedVictim = some x.1 := by rw [State.condemnedVictim, hx]; rfl
  exact ⟨x.1, by simp only [State.triggered, hvictim], hle, x.2, hfull, hxc⟩

theorem triggered_of_space {s : State} {b : BlockRef} (h : ∀ q ∈ s.fullBlocks, q.2.condemned = false)
    (hspace : s.spaceVictim = some b) : s.triggered = some (.space, b) := by
  simp only [State.triggered, condemnedVictim_eq_none h, hspace]

theorem triggered_of_no_space {s : State} (h : ∀ q ∈ s.fullBlocks, q.2.condemned = false)
    (hspace : s.spaceVictim = none) : s.triggered = s.levellingVictim.map fun b => (.levelling, b) := by
  simp only [State.triggered, condemnedVictim_eq_none h, hspace]

/-- The order of the space trigger's key, for erase counts within their range (R81). -/
theorem spaceKey_le_iff {x p : BlockRef × BlockRecord} (hx : x.2.eraseCount ≤ 16777215)
    (hp : p.2.eraseCount ≤ 16777215) : spaceKey x ≤ spaceKey p ↔
      x.2.live < p.2.live ∨ (x.2.live = p.2.live ∧
        (x.2.eraseCount < p.2.eraseCount ∨ (x.2.eraseCount = p.2.eraseCount ∧ x.1 ≤ p.1))) := by
  have hxref := x.1.isLt
  have hpref := p.1.isLt
  simp only [spaceKey, Config.maxEraseCount, Fin.le_def]
  omega

theorem poolKey_lt_iff {x p : BlockRef × BlockRecord} : poolKey x < poolKey p ↔
    x.2.eraseCount < p.2.eraseCount ∨ (x.2.eraseCount = p.2.eraseCount ∧ x.1 < p.1) := by
  have hxref := x.1.isLt
  have hpref := p.1.isLt
  simp only [poolKey, Fin.lt_def]
  omega

/-- R81. -/
theorem spaceVictim_of_mem {s : State} {p : BlockRef × BlockRecord}
    (hfree : (s.recordsIn .free).length ≤ s.mgmt.params.reclaimThreshold) (hp : p ∈ s.fullBlocks)
    (hlive : p.2.live < 127) : ∃ x ∈ s.fullBlocks, s.spaceVictim = some x.1 ∧ x.2.live < 127 ∧
      spaceKey x ≤ spaceKey p := by
  obtain ⟨x, hx, hmem, hle⟩ := exists_leastBy spaceKey
    (l := s.fullBlocks.filter fun q => decide (q.2.live < Config.dataSlots)) (y := p)
    (List.mem_filter.mpr ⟨hp, decide_eq_true hlive⟩)
  obtain ⟨hfull, hxlive⟩ := List.mem_filter.mp hmem
  refine ⟨x, hfull, ?_, of_decide_eq_true hxlive, hle⟩
  rw [State.spaceVictim, if_pos (by exact hfree), hx]
  rfl

theorem spaceVictim_of_above {s : State} (h : s.mgmt.params.reclaimThreshold < (s.recordsIn .free).length) :
    s.spaceVictim = none := if_neg (Nat.not_le.mpr h)

theorem spaceVictim_of_live {s : State} (h : ∀ q ∈ s.fullBlocks, 127 ≤ q.2.live) : s.spaceVictim = none := by
  unfold State.spaceVictim
  split
  · rw [Option.map_eq_none_iff, leastBy_eq_none, List.filter_eq_nil_iff]
    exact fun q hq => by rw [decide_eq_true_iff]; exact Nat.not_lt.mpr (h q hq)
  · rfl

theorem levellingVictim_of_below {s : State} (h : (s.recordsIn .free).length ≤ s.mgmt.params.reclaimThreshold) :
    s.levellingVictim = none := if_neg (Nat.not_lt.mpr h)

theorem le_foldl_max (l : List Nat) (acc : Nat) : acc ≤ l.foldl max acc ∧ ∀ n ∈ l, n ≤ l.foldl max acc := by
  induction l generalizing acc with
  | nil => simp
  | cons m l ih =>
    obtain ⟨hacc, hmem⟩ := ih (max acc m)
    rw [List.foldl_cons]
    refine ⟨by omega, fun n hn => ?_⟩
    rcases List.mem_cons.mp hn with rfl | hn
    · omega
    · exact hmem n hn

theorem foldl_max_le {l : List Nat} {acc bound : Nat} (hacc : acc ≤ bound) (h : ∀ n ∈ l, n ≤ bound) :
    l.foldl max acc ≤ bound := by
  induction l generalizing acc with
  | nil => exact hacc
  | cons m l ih =>
    have hm := h m List.mem_cons_self
    exact ih (by omega) fun n hn => h n (List.mem_cons_of_mem _ hn)

theorem le_largestCount {s : State} {m : BlockRef × BlockRecord} (hm : m ∈ s.blocks.records)
    (hretired : m.2.state ≠ .retired) : m.2.eraseCount ≤ s.largestCount := by
  refine (le_foldl_max _ 0).2 _ (List.mem_map.mpr ⟨m, List.mem_filter.mpr ⟨hm, ?_⟩, rfl⟩)
  simpa using hretired

theorem largestCount_le {s : State} {bound : Nat}
    (h : ∀ m ∈ s.blocks.records, m.2.state ≠ .retired → m.2.eraseCount ≤ bound) : s.largestCount ≤ bound := by
  refine foldl_max_le (Nat.zero_le _) fun n hn => ?_
  obtain ⟨m, hm, rfl⟩ := List.mem_map.mp hn
  obtain ⟨hmem, hstate⟩ := List.mem_filter.mp hm
  exact h m hmem (by simpa using hstate)

theorem filter_not_condemned {s : State} (h : ∀ q ∈ s.fullBlocks, q.2.condemned = false) :
    s.fullBlocks.filter (fun p => !p.2.condemned) = s.fullBlocks :=
  List.filter_eq_self.mpr fun q hq => by simp [h q hq]

/-- R82. -/
theorem levellingVictim_of_least {s : State} {p : BlockRef × BlockRecord}
    (habove : s.mgmt.params.reclaimThreshold < (s.recordsIn .free).length)
    (hcondemned : ∀ q ∈ s.fullBlocks, q.2.condemned = false) (h : leastBy poolKey s.fullBlocks = some p) :
    s.levellingVictim =
      if s.mgmt.params.wearLimit < s.largestCount - p.2.eraseCount then some p.1 else none := by
  rw [State.levellingVictim, if_pos (by exact habove), filter_not_condemned hcondemned, h]

theorem levellingVictim_of_no_full {s : State} (h : s.fullBlocks = []) : s.levellingVictim = none := by
  unfold State.levellingVictim
  split
  · rw [h]; rfl
  · rfl

/-! ## The evaluation (R79, R83) -/

/-- What a trigger chooses is a FULL block that awaits no page. -/
theorem mem_fullBlocks_of_triggered {s : State} {kind : ReclaimKind} {b : BlockRef}
    (h : s.triggered = some (kind, b)) : ∃ r, (b, r) ∈ s.fullBlocks := by
  have hleast : ∀ {key : BlockRef × BlockRecord → Nat} {p : BlockRef × BlockRecord → Bool},
      (leastBy key (s.fullBlocks.filter p)).map Prod.fst = some b → ∃ r, (b, r) ∈ s.fullBlocks := by
    intro key p hb
    obtain ⟨x, hx, rfl⟩ := Option.map_eq_some_iff.mp hb
    exact ⟨x.2, (List.mem_filter.mp (leastBy_spec hx).1).1⟩
  unfold State.triggered at h
  split at h
  case h_1 x hx =>
    cases h
    exact hleast hx
  case h_2 =>
    split at h
    case h_1 x hx =>
      cases h
      unfold State.spaceVictim at hx
      split at hx
      · exact hleast hx
      · cases hx
    case h_2 =>
      obtain ⟨x, hx, heq⟩ := Option.map_eq_some_iff.mp h
      cases heq
      unfold State.levellingVictim at hx
      split at hx
      · split at hx
        case h_1 y hy =>
          split at hx
          · cases hx
            exact ⟨y.2, (List.mem_filter.mp (leastBy_spec hy).1).1⟩
          · cases hx
        case h_2 => cases hx
      · cases hx

theorem evaluateTriggers_of_inactive {s : State} (h : s.service.state ≠ .active ∨ s.blocks.victim ≠ none ∨
    s.service.latch.reclaimHalted = true) : evaluateTriggers s = s := by
  refine if_neg fun ⟨hactive, hvictim, hhalted⟩ => ?_
  rcases h with h | h | h
  · exact h hactive
  · exact h hvictim
  · rw [h] at hhalted; cases hhalted

theorem evaluateTriggers_of_none {s : State} (h : s.triggered = none) : evaluateTriggers s = s := by
  unfold evaluateTriggers
  split
  · rw [h]
  · rfl

theorem evaluateTriggers_of_some {s : State} {kind : ReclaimKind} {b : BlockRef} (hactive : s.service.state = .active)
    (hvictim : s.blocks.victim = none) (hhalted : s.service.latch.reclaimHalted = false)
    (h : s.triggered = some (kind, b)) : evaluateTriggers s = chooseVictim kind b s := by
  rw [evaluateTriggers, if_pos ⟨hactive, hvictim, hhalted⟩, h]

theorem record_chooseVictim (kind : ReclaimKind) (b x : BlockRef) (s : State) :
    (chooseVictim kind b s).record x =
      if x = b then (s.record b).map fun r => { r with state := .victim } else s.record x :=
  record_modifyRecord s b x fun r => { r with state := .victim }

/-- Settles O58: the triggers in their order, each by the least of its key. -/
theorem triggersChooseTheVictim : Obligations.TriggersChooseTheVictim := by
  refine fun s => ⟨evaluateTriggers_of_inactive, fun hactive hvictim hhalted => ?active,
    fun p hp hcondemned => triggered_of_condemned hp hcondemned, fun hcondemned => ?others, fun p => mem_fullBlocks⟩
  case active =>
    refine ⟨evaluateTriggers_of_none, fun kind b r hsome hr => ?_⟩
    rw [evaluateTriggers_of_some hactive hvictim hhalted hsome]
    refine ⟨rfl, rfl, rfl, ?_, fun b' hne => ?_⟩
    · rw [record_chooseVictim, if_pos rfl, hr]; rfl
    · rw [record_chooseVictim, if_neg hne]
  case others =>
    refine ⟨fun hfree p hp hlive hcounts => ?space, fun habove p m hp hmin hm hretired hwear => ?levelling,
      fun hfree hlive => ?full, fun habove hwear => ?even⟩
    case space =>
      obtain ⟨x, hx, hvictim, hxlive, hle⟩ := spaceVictim_of_mem hfree hp hlive
      have hrange : ∀ q ∈ s.fullBlocks, q.2.eraseCount ≤ 16777215 := fun q hq => hcounts q (mem_fullBlocks.mp hq).1
      exact ⟨x.1, x.2, triggered_of_space hcondemned hvictim, hx, hxlive,
        (spaceKey_le_iff (hrange x hx) (hrange p hp)).mp hle⟩
    case levelling =>
      have hleast := leastBy_eq_some (key := poolKey) hp fun q hq hne => poolKey_lt_iff.mpr (hmin q hq hne)
      have hlargest := le_largestCount hm hretired
      have hvictim : s.levellingVictim = some p.1 := by
        rw [levellingVictim_of_least habove hcondemned hleast]
        exact if_pos (by omega)
      rw [triggered_of_no_space hcondemned (spaceVictim_of_above habove), hvictim]
      rfl
    case full =>
      rw [triggered_of_no_space hcondemned (spaceVictim_of_live hlive), levellingVictim_of_below hfree]
      rfl
    case even =>
      have hvictim : s.levellingVictim = none := by
        cases hleast : leastBy poolKey s.fullBlocks with
        | none => exact levellingVictim_of_no_full (leastBy_eq_none.mp hleast)
        | some p =>
          have hlargest : s.largestCount ≤ p.2.eraseCount + s.mgmt.params.wearLimit :=
            largestCount_le fun m hm hretired => by
              have := hwear p (leastBy_spec hleast).1 m hm hretired
              omega
          rw [levellingVictim_of_least habove hcondemned hleast]
          exact if_neg (by omega)
      rw [triggered_of_no_space hcondemned (spaceVictim_of_above habove), hvictim]
      rfl

end Sys2Proof.Machine
end

section
/-! PROOF. Slot requests (R19 to R22, R74, R75): the open block's next slot, the block taken from the pool, and the
refusals. -/

-- In order: as one text the package would start more threads than memory has stacks for.
set_option Elab.async false

namespace Sys2Proof.Machine

/-! ## Sorting by a key -/

theorem insertByKey_perm {α : Type} (key : α → Nat) (x : α) (l : List α) : (insertByKey key x l).Perm (x :: l) := by
  induction l with
  | nil => exact .refl _
  | cons y l ih =>
    unfold insertByKey
    split
    · exact .refl _
    · exact (ih.cons y).trans (.swap x y l)

theorem insertByKey_sorted {α : Type} (key : α → Nat) (x : α) {l : List α}
    (h : l.Pairwise fun a b => key a ≤ key b) : (insertByKey key x l).Pairwise fun a b => key a ≤ key b := by
  induction l with
  | nil => simp [insertByKey]
  | cons y l ih =>
    obtain ⟨hfirst, hrest⟩ := List.pairwise_cons.mp h
    unfold insertByKey
    split
    case isTrue hlt =>
      refine List.pairwise_cons.mpr ⟨fun z hz => ?_, h⟩
      rcases List.mem_cons.mp hz with rfl | hz
      · omega
      · have := hfirst z hz
        omega
    case isFalse hge =>
      refine List.pairwise_cons.mpr ⟨fun z hz => ?_, ih hrest⟩
      rcases List.mem_cons.mp ((insertByKey_perm key x l).mem_iff.mp hz) with rfl | hz
      · omega
      · exact hfirst z hz

theorem foldl_insertByKey {α : Type} (key : α → Nat) (l acc : List α) (h : acc.Pairwise fun a b => key a ≤ key b) :
    (l.foldl (fun acc x => insertByKey key x acc) acc).Perm (acc ++ l) ∧
      (l.foldl (fun acc x => insertByKey key x acc) acc).Pairwise fun a b => key a ≤ key b := by
  induction l generalizing acc with
  | nil => simpa using h
  | cons x l ih =>
    obtain ⟨hperm, hsorted⟩ := ih (insertByKey key x acc) (insertByKey_sorted key x h)
    exact ⟨hperm.trans (((insertByKey_perm key x acc).append_right l).trans List.perm_middle.symm), hsorted⟩

theorem mem_sortByKey {α : Type} {key : α → Nat} {l : List α} {x : α} : x ∈ sortByKey key l ↔ x ∈ l :=
  (foldl_insertByKey key l [] .nil).1.mem_iff

theorem sortByKey_sorted {α : Type} (key : α → Nat) (l : List α) :
    (sortByKey key l).Pairwise fun a b => key a ≤ key b := (foldl_insertByKey key l [] .nil).2

/-- In an ascending list, the first element that meets `p` is the one whose key lies below the others that meet it. -/
theorem find?_eq_some_of_least {α : Type} {key : α → Nat} {l : List α} {x : α} {p : α → Bool}
    (hsorted : l.Pairwise fun a b => key a ≤ key b) (hx : x ∈ l) (hp : p x = true)
    (hmin : ∀ y ∈ l, y ≠ x → p y = true → key x < key y) : l.find? p = some x := by
  induction l with
  | nil => cases hx
  | cons y l ih =>
    obtain ⟨hfirst, hrest⟩ := List.pairwise_cons.mp hsorted
    rw [List.find?_cons]
    by_cases hyx : y = x
    · rw [hyx, hp]
    · have hx' : x ∈ l := (List.mem_cons.mp hx).resolve_left fun h => hyx h.symm
      cases hpy : p y with
      | true =>
        have hlt := hmin y List.mem_cons_self hyx hpy
        have hle := hfirst x hx'
        omega
      | false => exact ih hrest hx' fun z hz => hmin z (List.mem_cons_of_mem _ hz)

theorem head?_eq_some_of_least {α : Type} {key : α → Nat} {l : List α} {x : α}
    (hsorted : l.Pairwise fun a b => key a ≤ key b) (hx : x ∈ l) (hmin : ∀ y ∈ l, y ≠ x → key x < key y) :
    l.head? = some x := by
  have hfind : l.head? = l.find? fun _ => true := by cases l <;> rfl
  rw [hfind]
  exact find?_eq_some_of_least hsorted hx rfl fun y hy hne _ => hmin y hy hne

/-! ## The choice from the pool (R20, R74) -/

theorem bankErasing_iff (s : State) (bk : BankId) : s.bankErasing bk = true ↔
    ∃ p ∈ s.blocks.records, p.2.state = .erasing ∧ BlockRef.bank p.1 = bk := by
  simp only [State.bankErasing, State.recordsIn, List.any_eq_true, List.mem_filter, beq_iff_eq, and_assoc]

theorem bankErasing_eq_false_iff (s : State) (bk : BankId) : s.bankErasing bk = false ↔
    ¬ ∃ p ∈ s.blocks.records, p.2.state = .erasing ∧ BlockRef.bank p.1 = bk := by
  rw [← bankErasing_iff, Bool.not_eq_true]

theorem mem_pool {s : State} {p : BlockRef × BlockRecord} : p ∈ s.pool ↔ p ∈ s.recordsIn .free := mem_sortByKey

theorem poolChoice_of_found {s : State} {p : BlockRef × BlockRecord}
    (h : (s.pool.find? fun p => !s.bankErasing (BlockRef.bank p.1)) = some p) : s.poolChoice = some p := by
  simp only [State.poolChoice, h]

theorem poolChoice_of_not_found {s : State}
    (h : (s.pool.find? fun p => !s.bankErasing (BlockRef.bank p.1)) = none) : s.poolChoice = s.pool.head? := by
  simp only [State.poolChoice, h]

/-- R20: the first of the pool of a bank with no ERASING block, or of the whole pool where every bank has one. -/
theorem poolChoice_eq_some {s : State} {p : BlockRef × BlockRecord} (hp : p ∈ s.recordsIn .free)
    (hbank : s.bankErasing (BlockRef.bank p.1) = false ∨
      ∀ q ∈ s.recordsIn .free, s.bankErasing (BlockRef.bank q.1) = true)
    (hmin : ∀ q ∈ s.recordsIn .free, q ≠ p →
      (s.bankErasing (BlockRef.bank p.1) = true ∨ s.bankErasing (BlockRef.bank q.1) = false) → poolKey p < poolKey q) :
    s.poolChoice = some p := by
  cases herasing : s.bankErasing (BlockRef.bank p.1) with
  | false =>
    refine poolChoice_of_found (find?_eq_some_of_least (sortByKey_sorted ..) (mem_pool.mpr hp) (by simp [herasing])
      fun q hq hne hqbank => hmin q (mem_pool.mp hq) hne (.inr (by simpa using hqbank)))
  | true =>
    have hall := hbank.resolve_left (by simp [herasing])
    rw [poolChoice_of_not_found (List.find?_eq_none.mpr fun q hq => by simp [hall q (mem_pool.mp hq)])]
    exact head?_eq_some_of_least (sortByKey_sorted ..) (mem_pool.mpr hp) fun q hq hne =>
      hmin q (mem_pool.mp hq) hne (.inl herasing)

/-! ## The open block's slots (R19, R75) -/

/-- A trigger evaluation leaves the open block, the awaited one, and every record but a FULL block's. -/
theorem evaluateTriggers_leaves (s : State) : (evaluateTriggers s).blocks.openBlock = s.blocks.openBlock ∧
    (evaluateTriggers s).blocks.awaiting = s.blocks.awaiting ∧
    ∀ b, (∀ r, (b, r) ∉ s.fullBlocks) → (evaluateTriggers s).record b = s.record b := by
  unfold evaluateTriggers
  split
  · split
    case h_1 kind x hsome =>
      refine ⟨rfl, rfl, fun b hb => ?_⟩
      have hne : b ≠ x := by
        rintro rfl
        obtain ⟨r, hr⟩ := mem_fullBlocks_of_triggered hsome
        exact hb r hr
      rw [record_chooseVictim, if_neg hne]
    case h_2 => exact ⟨rfl, rfl, fun _ _ => rfl⟩
  · exact ⟨rfl, rfl, fun _ _ => rfl⟩

theorem takeSlot_of_lt {b : BlockRef} {n : Nat} {s : State} {r : BlockRecord} (hn : n < 127) (h : s.record b = some r) :
    (takeSlot b n s).blocks.openBlock = some (b, n + 1) ∧
      (takeSlot b n s).record b = some { r with claimed := n } := by
  have hne : n ≠ 127 := Nat.ne_of_lt hn
  have hrecord := record_modifyRecord s b b fun r =>
    { r with claimed := n, state := if n = 127 then .full else r.state }
  rw [if_pos rfl, h] at hrecord
  refine ⟨?_, ?_⟩
  · simp only [takeSlot, if_neg hne]
  · simp only [takeSlot, if_neg hne] at hrecord ⊢
    exact hrecord

theorem takeSlot_last {b : BlockRef} {s : State} {r : BlockRecord} (h : s.record b = some r) :
    (takeSlot b 127 s).blocks.openBlock = none ∧ (takeSlot b 127 s).blocks.awaiting = some b ∧
      (takeSlot b 127 s).record b = some { r with claimed := 127, state := .full } := by
  let u := s.modifyRecord b fun r => { r with claimed := 127, state := if 127 = 127 then .full else r.state }
  let x : State := { u with blocks := { u.blocks with openBlock := none, awaiting := some b } }
  have htake : takeSlot b 127 s = evaluateTriggers x := rfl
  obtain ⟨hopen, hawaiting, hrecord⟩ := evaluateTriggers_leaves x
  rw [htake]
  refine ⟨hopen, hawaiting, (hrecord b fun r hr => ?_).trans ?_⟩
  · obtain ⟨-, -, hnot⟩ := mem_fullBlocks.mp hr
    exact hnot rfl
  · refine (record_modifyRecord s b b fun r =>
      { r with claimed := 127, state := if 127 = 127 then .full else r.state }).trans ?_
    rw [if_pos rfl, h]
    rfl

theorem slotRequest_of_open {s : State} {b : BlockRef} {n : Nat} (q : Requester)
    (h : s.blocks.openBlock = some (b, n)) :
    slotRequest q s = (.slot { block := b, slot := Fin.ofNat 128 n }, takeSlot b n s) := by
  simp only [slotRequest, h]

/-! ## A block taken from the pool (R20, R22, R52) -/

theorem slotRequest_of_taken {s : State} {b : BlockRef} {r : BlockRecord} {q : Requester}
    (hopen : s.blocks.openBlock = none) (hchoice : s.poolChoice = some (b, r)) (hmay : s.mayTake q = true) :
    slotRequest q s = (.inUse, takeBlock b r s) := by
  simp only [slotRequest, hopen, hchoice, hmay, if_true]

theorem slotRequest_of_refused {s : State} {q : Requester} (hopen : s.blocks.openBlock = none)
    (h : s.poolChoice = none ∨ s.mayTake q = false) : slotRequest q s = (.refused, s) := by
  unfold slotRequest
  rw [hopen]
  dsimp only
  split
  case h_1 x r hchoice =>
    rcases h with h | h
    · rw [h] at hchoice; cases hchoice
    · exact if_neg (by simp [h])
  case h_2 => rfl

theorem mem_modify_state {l : List (BlockRef × BlockRecord)} {b : BlockRef} {f : BlockRecord → BlockRecord}
    {p : BlockRef × BlockRecord} (h : p ∈ l.map fun x => if x.1 = b then (x.1, f x.2) else x) (hb : p.1 = b) :
    ∃ r, p.2 = f r := by
  obtain ⟨x, -, rfl⟩ := List.mem_map.mp h
  by_cases hx : x.1 = b
  · exact ⟨x.2, by simp [hx]⟩
  · rw [if_neg hx] at hb
    exact absurd hb hx

/-- The state in which the IN USE program of a taken block is asked for (R22). -/
def State.taken (s : State) (b : BlockRef) : State :=
  let u := s.modifyRecord b fun r => { r with state := .opened, claimed := 0 }
  ({ u with blocks := { u.blocks with openBlock := some (b, 1) } } : State).setReserveHold false

theorem takeBlock_eq (b : BlockRef) (r : BlockRecord) (s : State) : takeBlock b r s =
    handOver (BlockRef.bank b) .mover (.descriptor b (.inUse (byteOf r.eraseCount)) (DescProgram.inUse (byteOf
      r.eraseCount)).start) (evaluateTriggers (s.taken b)) := rfl

/-- R22: the taken block is OPEN with nothing claimed; no trigger can choose it, since it is not FULL. -/
theorem takeBlock_record {b : BlockRef} {r : BlockRecord} {s : State} (h : s.record b = some r) :
    (takeBlock b r s).blocks.openBlock = some (b, 1) ∧
      (takeBlock b r s).record b = some { r with state := .opened, claimed := 0 } := by
  obtain ⟨hopen, -, hrecord⟩ := evaluateTriggers_leaves (s.taken b)
  have hframe := (handOver_oneBank (BlockRef.bank b) .mover (.descriptor b (.inUse (byteOf r.eraseCount))
    (DescProgram.inUse (byteOf r.eraseCount)).start) (evaluateTriggers (s.taken b))).frame
  rw [takeBlock_eq]
  refine ⟨(congrArg BlockManager.openBlock hframe.blocks).trans hopen, ?_⟩
  rw [State.record, hframe.blocks]
  refine (hrecord b fun x hx => ?_).trans ?_
  · obtain ⟨hmem, hfull, -⟩ := mem_fullBlocks.mp hx
    obtain ⟨y, hy⟩ := mem_modify_state (f := fun r => { r with state := .opened, claimed := 0 }) hmem rfl
    rw [hy] at hfull
    cases hfull
  · refine (record_modifyRecord s b b fun r => { r with state := .opened, claimed := 0 }).trans ?_
    rw [if_pos rfl, h]
    rfl

theorem mayTake_of {s : State} {q : Requester} (hfree : 1 ≤ (s.recordsIn .free).length)
    (h : q = .hostCommit → s.service.state ≠ .draining → 3 ≤ (s.recordsIn .free).length) : s.mayTake q = true := by
  cases q with
  | reclaimMove => exact decide_eq_true hfree
  | hostCommit =>
    refine decide_eq_true ?_
    split
    case isTrue => exact hfree
    case isFalse hstate => exact h rfl hstate

/-- Settles O59: `slotRequest` by the open block, the pool's choice and the reserve. -/
theorem slotRequestsTakeInOrder : Obligations.SlotRequestsTakeInOrder := by
  refine fun s q => ⟨fun b n r hopen hn hr => ?slot, fun b r hopen hfree hr hreserve => ?taken,
    fun hopen hstate hfew => ?reserve, fun hopen hempty => ?empty⟩
  case slot =>
    rw [slotRequest_of_open q hopen]
    refine ⟨rfl, fun hlt => takeSlot_of_lt hlt hr, fun hlast => ?_⟩
    subst hlast
    exact takeSlot_last hr
  case taken =>
    intro erasing hbank hmin
    have herasing : ∀ x, s.bankErasing (BlockRef.bank x) = true ↔ erasing x := fun x => bankErasing_iff ..
    have hnot : ∀ x, s.bankErasing (BlockRef.bank x) = false ↔ ¬ erasing x := fun x => bankErasing_eq_false_iff ..
    have hchoice : s.poolChoice = some (b, r) := poolChoice_eq_some hfree
      (hbank.imp (hnot b).mpr fun h p hp => (herasing p.1).mpr (h p hp))
      fun p hp hne h => poolKey_lt_iff.mpr (hmin p hp hne (h.imp (herasing b).mp (hnot p.1).mp))
    obtain ⟨hopened, hrecord⟩ := takeBlock_record hr
    rw [slotRequest_of_taken hopen hchoice (mayTake_of (List.length_pos_of_mem hfree) hreserve)]
    exact ⟨rfl, hopened, hrecord, takeBlock_mover s b r, handOver_asks (c := .mover) _ _ _ nofun⟩
  case reserve =>
    refine slotRequest_of_refused hopen (.inr (decide_eq_false ?_))
    rw [if_neg hstate]
    exact Nat.not_le.mpr hfew
  case empty =>
    refine slotRequest_of_refused hopen (.inl ?_)
    have hpool : s.pool = [] := List.eq_nil_iff_forall_not_mem.mpr fun p hp => by
      rw [mem_pool, hempty] at hp
      cases hp
    rw [poolChoice_of_not_found (by rw [hpool]; rfl), hpool]
    rfl

end Sys2Proof.Machine
end

section
/-! SUPPORT. With no held write and no GATHERING entry (R31, R35) the arbiter's grants leave the host port as it is
and open no entry. -/

-- In order: as one text the package would start more threads than memory has stacks for.
set_option Elab.async false

namespace Sys2Proof.Machine

/-- No write is held, and no entry is GATHERING. -/
def State.Quiet (s : State) : Prop := s.waiting .staging = none ∧ ∀ i, (s.entry i).state ≠ .gathering

/-- From a quiet state, `t` is quiet with the same port. -/
structure StaysQuiet (s t : State) : Prop where
  keep : s.Quiet → t.port = s.port ∧ t.Quiet

namespace StaysQuiet

variable {s t u : State}

theorem refl (s : State) : StaysQuiet s s := ⟨fun h => ⟨rfl, h⟩⟩

theorem trans (hst : StaysQuiet s t) (htu : StaysQuiet t u) : StaysQuiet s u := by
  refine ⟨fun h => ?_⟩
  obtain ⟨hport, hquiet⟩ := hst.keep h
  exact ⟨(htu.keep hquiet).1.trans hport, (htu.keep hquiet).2⟩

theorem of_entries (hport : t.port = s.port)
    (hentry : ∀ i, (t.entry i).state = .gathering → (s.entry i).state = .gathering) : StaysQuiet s t :=
  ⟨fun h => ⟨hport, (waiting_congr hport _).trans h.1, fun i hi => h.2 i (hentry i hi)⟩⟩

theorem of_staging (hport : t.port = s.port) (h : t.staging = s.staging) : StaysQuiet s t :=
  of_entries hport fun i hi => by rw [State.entry, h] at hi; exact hi

theorem before (htu : StaysQuiet t u) (hport : t.port = s.port) (h : t.staging = s.staging) : StaysQuiet s u :=
  (of_staging hport h).trans htu

theorem of_reserveFrame (h : ReserveFrame s t) : StaysQuiet s t := of_staging h.port h.staging

theorem of_blockFrame (h : BlockFrame s t) : StaysQuiet s t := of_staging h.port h.staging

theorem of_bankFrame (h : BankFrame s t) : StaysQuiet s t := of_staging h.port h.staging

end StaysQuiet

theorem setEntry_quiet (s : State) (i : Fin 8) {e : Entry} (h : e.state ≠ .gathering) :
    StaysQuiet s (s.setEntry i e) := by
  refine .of_entries rfl fun j hj => ?_
  rw [entry_setEntry_eq] at hj
  split at hj
  · exact absurd hj h
  · exact hj

theorem closeAll_quiet (s : State) : StaysQuiet s (closeAll s) :=
  .of_entries (closeAll_frame s).port fun i hi => by
    rw [closeAll_entry] at hi
    exact absurd hi (afterClose_state_ne _)

theorem refuseHeld_quiet (s : State) : StaysQuiet s (refuseHeld s) := by
  refine ⟨fun h => ?_⟩
  rw [refuseHeld_of_none h.1]
  exact ⟨rfl, h⟩

theorem retryHeld_quiet (s : State) : StaysQuiet s (retryHeld s) := by
  refine ⟨fun h => ?_⟩
  rw [retryHeld, h.1]
  exact ⟨rfl, h⟩

theorem readOnlyEffect_quiet (s : State) : StaysQuiet s s.readOnlyEffect := by
  refine .trans (.of_staging (t := s.setFlag .readOnly) rfl rfl) ?_
  unfold State.readOnlyEffect
  split
  · exact (closeAll_quiet _).trans (refuseHeld_quiet _)
  · exact .refl _

theorem addCause_quiet (c : Cause) (s : State) : StaysQuiet s (addCause c s) := by
  cases hset : s.service.latch.isSet
  · rw [addCause_of_clear c hset]
    exact (readOnlyEffect_quiet s).trans (.of_staging rfl rfl)
  · rw [addCause_of_set c hset]
    exact .of_staging rfl rfl

/-! ## Ends of an operation -/

theorem releaseEntry_quiet (i : Fin 8) (s : State) : StaysQuiet s (releaseEntry i s) := by
  simp only [releaseEntry]
  refine (setEntry_quiet s i (e := Entry.blank) nofun).trans (.trans ?_ (retryHeld_quiet _))
  split
  · exact .of_staging rfl rfl
  · exact .refl _

theorem endCommit_quiet (i : Fin 8) (c : Counter) (s : State) : StaysQuiet s (endCommit i c s) :=
  .trans (.of_staging (t := s.bump c) rfl rfl) ((releaseEntry_quiet i _).trans (.of_staging rfl rfl))

theorem deferCommit_quiet (i : Fin 8) (s : State) : StaysQuiet s (deferCommit i s) :=
  (setEntry_quiet s i (e := { s.entry i with state := .closed }) nofun).trans (.of_entries rfl fun _ hj => hj)

theorem stickCommit_quiet (i : Fin 8) (s : State) : StaysQuiet s (stickCommit i s) :=
  (setEntry_quiet s i (e := { s.entry i with state := .stuck }) nofun).trans
    ((addCause_quiet .commitStuck _).trans (.of_staging rfl rfl))

theorem noSlot_quiet (r : OpRecord) (s : State) : StaysQuiet s (noSlot r s) := by
  unfold noSlot
  split
  · split
    · exact deferCommit_quiet ..
    · exact stickCommit_quiet ..
  · exact (addCause_quiet .reclaimHalted s).trans (.of_staging rfl rfl)

/-! ## Steps of an operation -/

theorem moverAsks_quiet (r : OpRecord) (p : Phase) (bk : BankId) (op : ReqOp) (s : State) :
    StaysQuiet s (moverAsks r p bk op s) := .of_staging (by simp [moverAsks, handOver]) (moverAsks_staging ..)

theorem seekSlot_quiet (r : OpRecord) (s : State) : StaysQuiet s (seekSlot r s) := by
  have hrequest : StaysQuiet s (slotRequest r.requester s).2 := .of_reserveFrame (slotRequest_frame ..)
  unfold seekSlot
  split
  case h_1 n u hanswer => rw [hanswer] at hrequest; exact hrequest.trans (moverAsks_quiet ..)
  case h_2 u hanswer => rw [hanswer] at hrequest; exact hrequest.trans (.of_staging rfl rfl)
  case h_3 u hanswer => rw [hanswer] at hrequest; exact hrequest.trans (noSlot_quiet ..)

theorem writeInPlace_quiet (r : OpRecord) (i : Fin 8) (src : SlotRef) (h : Nat) (s : State) :
    StaysQuiet s (writeInPlace r i src h s) := by
  unfold writeInPlace
  split
  · exact moverAsks_quiet ..
  · exact endCommit_quiet ..

theorem decideCommit_quiet (r : OpRecord) (i : Fin 8) (s : State) : StaysQuiet s (decideCommit r i s) := by
  unfold decideCommit
  split
  · exact endCommit_quiet ..
  · split
    · exact writeInPlace_quiet ..
    · exact seekSlot_quiet ..

theorem startEntry_quiet (i : Fin 8) (s : State) : StaysQuiet s (startEntry i s) :=
  (setEntry_quiet s i (e := { s.entry i with state := .committing }) nofun).trans (.of_entries rfl fun _ hj => hj)

theorem startCommit_quiet (i : Fin 8) (s : State) : StaysQuiet s (startCommit i s) := by
  simp only [startCommit]
  refine (startEntry_quiet i s).trans ?_
  split
  · exact (moverAsks_quiet ..).before rfl rfl
  · exact (decideCommit_quiet ..).before rfl rfl

theorem scanNext_quiet (s : State) : StaysQuiet s (scanNext s) := by
  unfold scanNext
  split
  · split
    · exact (StaysQuiet.of_bankFrame (handOver_oneBank ..).frame).before rfl rfl
    · exact (StaysQuiet.of_blockFrame (finishVictim_frame _)).before rfl rfl
  · exact .of_staging rfl rfl

theorem grantOnce_quiet (s : State) : StaysQuiet s (grantOnce s) := by
  unfold grantOnce
  split
  · split
    · exact (startCommit_quiet ..).before rfl rfl
    · exact (scanNext_quiet _).before rfl rfl
    · exact .refl s
  · exact .refl s

theorem arbitrate_quiet (n : Nat) (s : State) : StaysQuiet s (arbitrate n s) := by
  induction n generalizing s with
  | zero => exact .refl s
  | succ n ih =>
    unfold arbitrate
    split
    · exact (grantOnce_quiet s).trans (ih _)
    · exact .refl s

theorem settle_quiet (s : State) : StaysQuiet s (settle s) :=
  (arbitrate_quiet 32 s).trans (.of_bankFrame (kickBanks_frame _))

end Sys2Proof.Machine
end

section
/-! SUPPORT. PFAIL asserted at the bank controllers (R111) and at drain control (R149, R154, R158), and the test of the
drain's condition (R155). -/

-- In order: as one text the package would start more threads than memory has stacks for.
set_option Elab.async false

namespace Sys2Proof.Machine

/-! ## A suspended erase (R104, R111) -/

/-- What a bank holds of an erase being suspended: the bank state, the context and the suspend-acknowledge timer. -/
def BankCtl.suspension (k : BankCtl) : BankState × Option EraseContext × Option Nat :=
  (k.state, k.context, k.suspendTimer)

/-- The bank waits for the suspend of its erase, or holds it SUSPENDED under power hold (R111). -/
def BankCtl.held (k : BankCtl) : Prop :=
  k.state = .suspending ∨ k.state = .suspended ∧ ∃ c, k.context = some c ∧ c.powerHold = true

theorem held_of_suspension {k x : BankCtl} (h : k.held) (hsame : x.suspension = k.suspension) : x.held := by
  obtain ⟨hstate, hrest⟩ := Prod.mk.inj hsame
  obtain ⟨hcontext, -⟩ := Prod.mk.inj hrest
  rw [BankCtl.held, hstate, hcontext]
  exact h

theorem suspension_of_work {k x : BankCtl} (h : x.work = k.work) : x.suspension = k.suspension :=
  congrArg (fun w : BankWork => (w.state, w.context, w.suspendTimer)) h

theorem work_of_besideMover {k x : BankCtl} (h : x.besideMover = k.besideMover) : x.work = k.work :=
  (congrArg BankCtl.work h :)

theorem beginAction_suspension {s : State} {bk : BankId} (c : ReqClass) (a : Action)
    (h : (s.bank bk).state = .suspended) : ((beginAction bk c a s).bank bk).suspension = (s.bank bk).suspension := by
  rw [bank_beginAction, if_pos h, ← h]
  cases c <;> rfl

theorem beginClass_suspension {s : State} {bk : BankId} (c : ReqClass) (h : (s.bank bk).state = .suspended) :
    ((beginClass bk c s).bank bk).suspension = (s.bank bk).suspension := by
  unfold beginClass
  split
  · exact beginAction_suspension _ _ h
  · rfl

/-- R111: under power hold the bank's choice leaves it SUSPENDED. -/
theorem chooseSuspended_suspension {s : State} {bk : BankId} (h : (s.bank bk).state = .suspended) :
    ((chooseSuspended bk true s).bank bk).suspension = (s.bank bk).suspension := by
  simp only [chooseSuspended]
  split
  · exact beginAction_suspension _ _ h
  · split
    · exact beginClass_suspension _ h
    · rfl

theorem kickBank_suspension {s : State} {bk : BankId} (other : BankId) (h : (s.bank bk).held) :
    ((kickBank other s).bank bk).suspension = (s.bank bk).suspension := by
  by_cases hbk : bk = other
  · subst hbk
    rcases h with hstate | ⟨hstate, c, hcontext, hhold⟩
    · rw [kickBank_of_busy (.inr (.inr (.inl hstate)))]
    · cases hactive : (s.bank bk).active with
      | some a => simp only [kickBank, hactive]
      | none =>
        rw [kickBank_of_suspended hactive hstate hcontext, hhold]
        exact chooseSuspended_suspension hstate
  · rw [(kickBank_oneBank other s).bank_ne hbk]

theorem settle_suspension {s : State} {bk : BankId} (h : (s.bank bk).held) :
    ((settle s).bank bk).suspension = (s.bank bk).suspension := by
  have harbitrate : ((arbitrate 32 s).bank bk).suspension = (s.bank bk).suspension :=
    suspension_of_work (work_of_besideMover (bank_of_besideMover (arbitrate_besideMover 32 s) bk))
  have hheld := held_of_suspension h harbitrate
  have hfirst := kickBank_suspension .a hheld
  exact (kickBank_suspension .b (held_of_suspension hheld hfirst)).trans (hfirst.trans harbitrate)

/-! ## PFAIL at a bank (R111) -/

theorem holdBank_of_erase {s : State} {bk : BankId} {c : EraseContext} (hstate : (s.bank bk).state = .erase)
    (hcontext : (s.bank bk).context = some c) : ((holdBank bk s).bank bk).suspension =
      (.suspending, some { c with cause := .power, powerHold := true }, some s.mgmt.params.programTimeout) := by
  simp only [holdBank, hstate, requestSuspend, hcontext]
  rw [setBank_bank]
  rfl

theorem holdBank_of_suspended {s : State} {bk : BankId} {c : EraseContext}
    (hstate : (s.bank bk).state = .suspending ∨ (s.bank bk).state = .suspended)
    (hcontext : (s.bank bk).context = some c) : ((holdBank bk s).bank bk).suspension =
      ((s.bank bk).state, some { c with powerHold := true }, (s.bank bk).suspendTimer) := by
  have hhold : holdBank bk s = setPowerHold true bk s := by
    rcases hstate with h | h <;> simp only [holdBank, h]
  simp only [hhold, setPowerHold, hcontext]
  rw [setBank_bank]
  rfl

/-- Each bank controller hears PFAIL by itself. -/
theorem holdBanks_bank (bk : BankId) (s : State) :
    ∃ u, (holdBanks s).bank bk = (holdBank bk u).bank bk ∧ u.bank bk = s.bank bk ∧ u.mgmt = s.mgmt := by
  cases bk
  case a => exact ⟨s, (holdBank_oneBank .b _).bank_ne (by decide), rfl, rfl⟩
  case b =>
    exact ⟨holdBank .a s, rfl, (holdBank_oneBank .a s).bank_ne (by decide), (holdBank_oneBank .a s).frame.mgmt⟩

theorem holdBanks_of_erase {s : State} {bk : BankId} {c : EraseContext} (hstate : (s.bank bk).state = .erase)
    (hcontext : (s.bank bk).context = some c) : ((holdBanks s).bank bk).suspension =
      (.suspending, some { c with cause := .power, powerHold := true }, some s.mgmt.params.programTimeout) := by
  obtain ⟨u, hbank, hsame, hmgmt⟩ := holdBanks_bank bk s
  rw [hbank, ← hmgmt]
  rw [← hsame] at hstate hcontext
  exact holdBank_of_erase hstate hcontext

theorem holdBanks_of_suspended {s : State} {bk : BankId} {c : EraseContext}
    (hstate : (s.bank bk).state = .suspending ∨ (s.bank bk).state = .suspended)
    (hcontext : (s.bank bk).context = some c) : ((holdBanks s).bank bk).suspension =
      ((s.bank bk).state, some { c with powerHold := true }, (s.bank bk).suspendTimer) := by
  obtain ⟨u, hbank, hsame, -⟩ := holdBanks_bank bk s
  rw [hbank]
  rw [← hsame] at hstate hcontext ⊢
  exact holdBank_of_suspended hstate hcontext

/-! ## PFAIL at drain control (R149, R154, R158) -/

theorem withdrawUnbegun_work (k bk : BankId) (s : State) :
    ((withdrawUnbegun k s).bank bk).work = (s.bank bk).work := by
  by_cases h : bk = k
  · subst h
    simp only [withdrawUnbegun]
    rw [setBank_bank]
    rfl
  · rw [(withdrawUnbegun_oneBank k s).bank_ne h]

theorem abandonFormat_work (bk : BankId) (s : State) : ((abandonFormat s).bank bk).work = (s.bank bk).work := by
  unfold abandonFormat
  split
  · exact (withdrawUnbegun_work .b bk _).trans (withdrawUnbegun_work .a bk _)
  · rfl
  · rfl

theorem abandonFormat_engine {s : State} {w : FormatWork} (h : s.engine = .format w) :
    (abandonFormat s).engine = .format { w with abandoned := true } := by
  simp only [abandonFormat, h]
  exact ((withdrawUnbegun_oneBank .b _).frame.engine).trans (withdrawUnbegun_oneBank .a _).frame.engine

theorem startDrain_banks (s : State) : (startDrain s).bankA = s.bankA ∧ (startDrain s).bankB = s.bankB := by
  rw [startDrain_eq]
  exact ⟨rfl, rfl⟩

theorem assertLine_bank (bk : BankId) (s : State) : (assertLine s).bank bk = s.bank bk := by
  unfold assertLine
  split <;> rfl

/-- R111: PFAIL at drain control leaves to the banks what they carry out. -/
theorem pfailAtDrain_work (bk : BankId) (s : State) : ((pfailAtDrain s).bank bk).work = (s.bank bk).work := by
  unfold pfailAtDrain
  split
  case h_2 => rw [assertLine_bank]; rfl
  case h_3 => exact abandonFormat_work bk s
  case h_4 => exact congrArg BankCtl.work (bank_congr (startDrain_banks s).1 (startDrain_banks s).2 bk)
  all_goals rfl

theorem pfailAtDrain_pageMap (s : State) : (pfailAtDrain s).pageMap = s.pageMap := by
  unfold pfailAtDrain
  split
  case h_2 => rw [assertLine_eq]; split <;> rfl
  case h_3 => exact (abandonFormat_frame s).pageMap
  case h_4 => rw [startDrain_eq]; rfl
  all_goals rfl

/-- The state in which PFAIL's other effects end, before the drain's condition is tested. -/
def State.pfailHeard (s : State) : State := settle (holdBanks (pfailAtDrain (setPfail true s)))

theorem exec_pfailAsserted {s : State} (h : s.pins.pfail = false) :
    exec .pfailAsserted s = .next (testDrain s.pfailHeard) :=
  congrArg Host.Outcome.next (if_neg (by simp [h]))

theorem pfailHeard_base (s : State) : s.pfailHeard.base = (setPfail true s).base := by
  rw [State.pfailHeard, settle_base, holdBanks_base, pfailAtDrain_base]

theorem pfailHeard_kept (s : State) : s.pfailHeard.kept = (pfailAtDrain (setPfail true s)).kept := by
  rw [State.pfailHeard, settle_kept, holdBanks_kept]

theorem pfailHeard_hasFlag {s : State} {f : Flag} (h : (pfailAtDrain (setPfail true s)).hasFlag f = true) :
    s.pfailHeard.hasFlag f = true := by
  refine settle_hasFlag _ _ ?_
  rw [State.hasFlag, (holdBanks_frame _).mgmt]
  exact h

/-! ## The test of the drain's condition under PFAIL (R155) -/

/-- `t` is `s` but for the service state, drain control and the flags. -/
def LineFrame (s t : State) : Prop := t = { s with service := t.service, drain := t.drain, mgmt := t.mgmt }

theorem testDrain_of_not_ready {s : State} (h : s.drainReady = false) : testDrain s = s := if_neg (by simp [h])

theorem testDrain_of_state {s : State} (h : s.service.state ≠ .draining) : testDrain s = s :=
  testDrain_of_not_ready (by simp [State.drainReady, h])

theorem testDrain_of_pfail {s : State} (hpfail : s.pins.pfail = true) (h : s.drainReady = true) :
    testDrain s = assertLine (s.setService .drained) := (if_pos h).trans (completeDrain_of_pfail hpfail)

theorem testDrain_frame {s : State} (hpfail : s.pins.pfail = true) : LineFrame s (testDrain s) := by
  cases h : s.drainReady
  · rw [testDrain_of_not_ready h]; rfl
  · rw [testDrain_of_pfail hpfail h, assertLine_setService]
    split <;> rfl

theorem testDrain_drain {s : State} (hpfail : s.pins.pfail = true) :
    (testDrain s).drain = { s.drain with line := (testDrain s).drain.line } := by
  cases h : s.drainReady
  · rw [testDrain_of_not_ready h]
  · rw [testDrain_of_pfail hpfail h, assertLine_setService]

theorem testDrain_hasFlag {s : State} {f : Flag} (hpfail : s.pins.pfail = true) (hf : s.hasFlag f = true) :
    (testDrain s).hasFlag f = true := by
  cases h : s.drainReady
  · rw [testDrain_of_not_ready h]; exact hf
  · rw [testDrain_of_pfail hpfail h]
    exact assertLine_hasFlag _ _ hf

/-- R155: in DRAINING with PFAIL asserted, the drain ends exactly when it is done. -/
theorem testDrain_of_draining {s : State} (hpfail : s.pins.pfail = true) (hstate : s.service.state = .draining) :
    ((testDrain s).drainDone = true → (testDrain s).service.state = .drained ∧ (testDrain s).drain.line = true ∧
      (s.drain.line = false → (testDrain s).hasFlag .drainDone = true)) ∧
    ((testDrain s).drainDone = false →
      (testDrain s).service.state = .draining ∧ (testDrain s).drain.line = s.drain.line) := by
  have hdone : s.drainReady = s.drainDone := by simp [State.drainReady, hstate, hpfail]
  cases h : s.drainReady
  · rw [testDrain_of_not_ready h, ← hdone, h]
    exact ⟨nofun, fun _ => ⟨hstate, rfl⟩⟩
  · have hsame : (testDrain s).drainDone = true := by
      rw [testDrain_of_pfail hpfail h, assertLine_setService]
      split <;> exact hdone.symm.trans h
    rw [hsame, testDrain_of_pfail hpfail h, assertLine_setService]
    refine ⟨fun _ => ⟨rfl, rfl, fun hline => ?_⟩, nofun⟩
    rw [if_neg (by simp [hline])]
    exact (hasFlag_setFlag s .drainDone .drainDone).trans (by simp)

end Sys2Proof.Machine
end

section
/-! PROOF. PFAIL becomes asserted (R111, R149, R154 to R158). -/

-- In order: as one text the package would start more threads than memory has stacks for.
set_option Elab.async false

namespace Sys2Proof.Machine

/-! ## The banks (R111) -/

theorem heard_work (bk : BankId) (s : State) : ((pfailAtDrain (setPfail true s)).bank bk).work = (s.bank bk).work :=
  pfailAtDrain_work bk _

theorem pfailHeard_of_erase {s : State} {bk : BankId} {c : EraseContext} (hstate : (s.bank bk).state = .erase)
    (hcontext : (s.bank bk).context = some c) : (s.pfailHeard.bank bk).suspension =
      (.suspending, some { c with cause := .power, powerHold := true }, some s.mgmt.params.programTimeout) := by
  have hwork := heard_work bk s
  have hparams : (pfailAtDrain (setPfail true s)).mgmt.params = s.mgmt.params :=
    params_of_settings ((settings_of_base (pfailAtDrain_base (setPfail true s))).trans rfl)
  have hheld := holdBanks_of_erase ((congrArg BankWork.state hwork).trans hstate)
    ((congrArg BankWork.context hwork).trans hcontext)
  rw [hparams] at hheld
  rw [State.pfailHeard, settle_suspension (.inl (congrArg Prod.fst hheld)), hheld]

theorem pfailHeard_of_suspended {s : State} {bk : BankId} {c : EraseContext}
    (hstate : (s.bank bk).state = .suspending ∨ (s.bank bk).state = .suspended)
    (hcontext : (s.bank bk).context = some c) : (s.pfailHeard.bank bk).suspension =
      ((s.bank bk).state, some { c with powerHold := true }, (s.bank bk).suspendTimer) := by
  have hsame := suspension_of_work (heard_work bk s)
  obtain ⟨hstate', hrest⟩ := Prod.mk.inj hsame
  obtain ⟨hcontext', htimer⟩ := Prod.mk.inj hrest
  have hbank := holdBanks_of_suspended (s := pfailAtDrain (setPfail true s)) (bk := bk) (by rwa [hstate'])
    (hcontext'.trans hcontext)
  rw [hstate', htimer] at hbank
  have hheld : ((holdBanks (pfailAtDrain (setPfail true s))).bank bk).held := by
    obtain ⟨hstate'', hrest⟩ := Prod.mk.inj hbank
    rw [BankCtl.held, hstate'', (Prod.mk.inj hrest).1]
    exact hstate.imp id fun h => ⟨h, _, rfl, rfl⟩
  rw [State.pfailHeard, settle_suspension hheld, hbank]

/-! ## A drain that starts (R154) -/

/-- R154: after a drain has started no entry is GATHERING and no write is held. -/
theorem startDrain_quiet (s : State) : (startDrain s).Quiet := by
  refine ⟨?_, fun i => ?_⟩
  · cases h : s.waiting .staging with
    | none => exact (waiting_congr (startDrain_of_none h).1 _).trans h
    | some c => exact (waiting_congr (startDrain_of_held h).1 _).trans rfl
  · rw [startDrain_entry]
    exact afterClose_state_ne _

theorem pfailAtDrain_of_active {s : State} (h : s.service.state = .active) :
    pfailAtDrain (setPfail true s) = startDrain (setPfail true s) := by
  have hstate : (setPfail true s).service.state = .active := h
  simp only [pfailAtDrain, hstate]

/-- R154: what follows a drain's start opens no entry and leaves the host port alone. -/
theorem pfailHeard_of_active {s : State} (h : s.service.state = .active) :
    s.pfailHeard.port = (startDrain (setPfail true s)).port ∧ s.pfailHeard.Quiet := by
  have hframe := holdBanks_frame (startDrain (setPfail true s))
  have hquiet : StaysQuiet (startDrain (setPfail true s)) s.pfailHeard := by
    rw [State.pfailHeard, pfailAtDrain_of_active h]
    exact (StaysQuiet.of_bankFrame hframe).trans (settle_quiet _)
  exact hquiet.keep (startDrain_quiet _)

theorem pfailHeard_writeRefused {s : State} {c : Cycle} (h : s.service.state = .active)
    (hheld : s.waiting .staging = some c) : s.pfailHeard.hasFlag .writeRefused = true := by
  refine pfailHeard_hasFlag ?_
  rw [pfailAtDrain_of_active h, State.hasFlag, (startDrain_of_held (s := setPfail true s) hheld).2]
  exact (hasFlag_setFlag (setPfail true s) .writeRefused .writeRefused).trans (by simp)

/-! ## By the service state -/

theorem pfailHeard_drain (s : State) : s.pfailHeard.drain = (pfailAtDrain (setPfail true s)).drain :=
  congrArg Kept.drain (pfailHeard_kept s)

theorem pfailHeard_state (s : State) : s.pfailHeard.service.state = (pfailAtDrain (setPfail true s)).service.state :=
  (state_of_settle _).trans (congrArg Service.state (holdBanks_frame _).service)

theorem pfailHeard_active {s : State} (h : s.service.state = .active) :
    s.pfailHeard.service.state = .draining ∧ s.pfailHeard.drain = { s.drain with returnState := some .active } := by
  rw [pfailHeard_state, pfailHeard_drain, pfailAtDrain_of_active h, startDrain_eq]
  exact ⟨rfl, rfl⟩

theorem pfailHeard_unchanged {s : State} (h : s.service.state = .mounting ∨ s.service.state = .draining ∨
    s.service.state = .drained) : s.pfailHeard.service.state = s.service.state ∧ s.pfailHeard.drain = s.drain := by
  have hsame : pfailAtDrain (setPfail true s) = setPfail true s := by
    have hservice : (setPfail true s).service = s.service := rfl
    rcases h with h | h | h <;> simp only [pfailAtDrain, hservice, h]
  rw [pfailHeard_state, pfailHeard_drain, hsame]
  exact ⟨rfl, rfl⟩

theorem pfailHeard_unformatted {s : State} (h : s.service.state = .unformatted) :
    s.pfailHeard.service.state = .drained ∧ s.pfailHeard.drain.returnState = some .unformatted ∧
      s.pfailHeard.drain.line = true ∧ (s.drain.line = false → s.pfailHeard.hasFlag .drainDone = true) := by
  have hstate : (setPfail true s).service.state = .unformatted := h
  have hsame : pfailAtDrain (setPfail true s) =
      assertLine (setReturn (some .unformatted) ((setPfail true s).setService .drained)) := by
    simp only [pfailAtDrain, hstate]
  have hline : ∀ u : State, u.drain.line = false → (assertLine u).hasFlag .drainDone = true := fun u hu => by
    rw [assertLine_eq, if_neg (by simp [hu])]
    exact (hasFlag_setFlag u .drainDone .drainDone).trans (by simp)
  rw [pfailHeard_state, pfailHeard_drain, hsame, assertLine_service]
  refine ⟨rfl, ?_, ?_, fun h => pfailHeard_hasFlag (hsame ▸ hline _ h)⟩
  · rw [assertLine_eq]; rfl
  · rw [assertLine_eq]

theorem pfailHeard_formatting {s : State} {w : FormatWork} (h : s.service.state = .formatting)
    (hengine : s.engine = .format w) : s.pfailHeard.service.state = .formatting ∧
      s.pfailHeard.engine = .format { w with abandoned := true } := by
  have hstate : (setPfail true s).service.state = .formatting := h
  have hsame : pfailAtDrain (setPfail true s) = abandonFormat (setPfail true s) := by
    simp only [pfailAtDrain, hstate]
  rw [pfailHeard_state, show s.pfailHeard.engine = _ from congrArg Kept.engine (pfailHeard_kept s), hsame]
  exact ⟨(congrArg Service.state (abandonFormat_frame _).service).trans h, abandonFormat_engine hengine⟩

/-- Settles O36: PFAIL's effects before the drain's condition is tested, then the test. -/
theorem pfailAssertedStartsTheDrain : Obligations.PfailAssertedStartsTheDrain := by
  intro s hpfail
  have hbase := pfailHeard_base s
  have hpins : s.pfailHeard.pins = { s.pins with pfail := true } := congrArg Base.pins hbase
  have hlevel : s.pfailHeard.pins.pfail = true := by rw [hpins]
  have hframe := testDrain_frame hlevel
  have hdrain := testDrain_drain hlevel
  have hbank : ∀ bk, (testDrain s.pfailHeard).bank bk = s.pfailHeard.bank bk := fun bk => by
    rw [hframe]; cases bk <;> rfl
  have hpageMap : s.pfailHeard.pageMap = s.pageMap :=
    (congrArg Kept.pageMap (pfailHeard_kept s)).trans (pfailAtDrain_pageMap _)
  have hafter : s.service.state = .active ∨ s.service.state = .draining → s.pfailHeard.service.state = .draining ∧
      s.pfailHeard.drain.line = s.drain.line := by
    rintro (h | h)
    · exact ⟨(pfailHeard_active h).1, by rw [(pfailHeard_active h).2]⟩
    · have hsame := pfailHeard_unchanged (.inr (.inl h))
      exact ⟨hsame.1.trans h, congrArg Drain.line hsame.2⟩
  refine ⟨_, exec_pfailAsserted hpfail, ?pins, ?flashA, ?flashB, ?pageMap, fun h => ?active, fun h => ?draining,
    fun h => ?drain, fun h => ?unformatted, fun h => ?others, fun w h hw => ?formatting, fun bk c hc => ?banks⟩
  case pins => rw [hframe]; exact hpins
  case flashA => rw [hframe]; exact congrArg Base.flashA hbase
  case flashB => rw [hframe]; exact congrArg Base.flashB hbase
  case pageMap => rw [hframe]; exact hpageMap
  case active =>
    obtain ⟨hport, hquiet⟩ := pfailHeard_of_active h
    rw [hdrain, (pfailHeard_active h).2]
    refine ⟨rfl, rfl, fun i => ?_, fun c hstate hcycle hwait => ?_⟩
    · rw [hframe]
      exact hquiet.2 i
    · have hheld := waiting_of_holding hstate hcycle hwait
      refine ⟨?_, testDrain_hasFlag hlevel (pfailHeard_writeRefused h hheld)⟩
      rw [hframe]
      exact hport.trans (startDrain_of_held (s := setPfail true s) hheld).1
  case draining =>
    rw [hdrain, (pfailHeard_unchanged (.inr (.inl h))).2]
    exact ⟨rfl, rfl⟩
  case drain =>
    obtain ⟨hstate, hline⟩ := hafter h
    rw [← hline]
    exact testDrain_of_draining hlevel hstate
  case unformatted =>
    have hu := pfailHeard_unformatted h
    rw [testDrain_of_state (by rw [hu.1]; decide)]
    exact hu
  case others =>
    have hstate : s.pfailHeard.service.state = s.service.state :=
      (pfailHeard_unchanged (h.imp id .inr)).1
    rw [testDrain_of_state (by rw [hstate]; rcases h with h | h <;> (rw [h]; decide))]
    exact hstate
  case formatting =>
    have hu := pfailHeard_formatting h hw
    rw [testDrain_of_state (by rw [hu.1]; decide)]
    exact hu
  case banks =>
    rw [hbank]
    refine ⟨fun h => ?_, fun h => ?_⟩
    · have hsame := pfailHeard_of_erase h hc
      exact ⟨congrArg Prod.fst hsame, congrArg (fun x => x.2.1) hsame, congrArg (fun x => x.2.2) hsame⟩
    · have hsame := pfailHeard_of_suspended h hc
      exact ⟨congrArg Prod.fst hsame, congrArg (fun x => x.2.1) hsame⟩

end Sys2Proof.Machine
end

section
/-! SUPPORT. What the arbiter's grants and the banks' choices keep of an erase in progress (R103, R106, R111), and that
they leave a bank at rest under restart-pending (R98, R152). -/

-- In order: as one text the package would start more threads than memory has stacks for.
set_option Elab.async false

namespace Sys2Proof.Machine

/-! ## An erase in progress -/

/-- What stays of an erase context until the erase ends, but for PFAIL: the block, the suspend count while no suspend is
acknowledged, and the power hold (R104, R111). -/
def EraseContext.lasting (c : EraseContext) : BlockRef × Nat × Bool := (c.block, c.suspendCount, c.powerHold)

/-- Whether an erase is in progress on the bank, and what lasts of it. -/
def BankCtl.erasing (k : BankCtl) : Bool × Option (BlockRef × Nat × Bool) :=
  (k.eraseInProgress, k.context.map EraseContext.lasting)

theorem erasing_of_suspension {k x : BankCtl} (h : x.suspension = k.suspension) : x.erasing = k.erasing :=
  congrArg (fun w : BankState × Option EraseContext × Option Nat =>
    (w.1 == .erase || w.1 == .suspending || w.1 == .suspended, w.2.1.map EraseContext.lasting)) h

theorem erasing_of_work {k x : BankCtl} (h : x.work = k.work) : x.erasing = k.erasing :=
  erasing_of_suspension (suspension_of_work h)

theorem beginAction_erasing {s : State} {bk : BankId} (c : ReqClass) (a : Action)
    (h : (s.bank bk).state = .suspended) : ((beginAction bk c a s).bank bk).erasing = (s.bank bk).erasing :=
  erasing_of_suspension (beginAction_suspension c a h)

theorem resumeErase_erasing {s : State} {bk : BankId} (h : (s.bank bk).eraseInProgress = true) :
    ((resumeErase bk s).bank bk).erasing = (s.bank bk).erasing := by
  rw [resumeErase, setBank_bank, BankCtl.erasing, BankCtl.erasing, h]
  cases (s.bank bk).context <;> rfl

theorem decideSuspend_erasing {s : State} {bk : BankId} {c : EraseContext} (h : (s.bank bk).eraseInProgress = true)
    (hcontext : (s.bank bk).context = some c) : ((decideSuspend bk c s).bank bk).erasing = (s.bank bk).erasing := by
  rw [decideSuspend_eq]
  split
  · rw [requestSuspend_eq _ _ hcontext, setBank_bank, BankCtl.erasing, BankCtl.erasing, h, hcontext]
    rfl
  · rfl

theorem chooseSuspended_erasing {s : State} {bk : BankId} (hold : Bool) (hstate : (s.bank bk).state = .suspended) :
    ((chooseSuspended bk hold s).bank bk).erasing = (s.bank bk).erasing := by
  simp only [chooseSuspended]
  split
  · exact beginAction_erasing _ _ hstate
  · split
    · unfold beginClass
      split
      · exact beginAction_erasing _ _ hstate
      · rfl
    · split
      · rfl
      · exact resumeErase_erasing (by simp [BankCtl.eraseInProgress, hstate])

theorem eraseInProgress_iff (k : BankCtl) :
    k.eraseInProgress = true ↔ k.state = .erase ∨ k.state = .suspending ∨ k.state = .suspended := by
  simp [BankCtl.eraseInProgress, or_assoc]

/-- R103, R106: a bank's choice goes on with the erase in progress. -/
theorem kickBank_erasing {s : State} {bk : BankId} (other : BankId) (h : (s.bank bk).eraseInProgress = true) :
    ((kickBank other s).bank bk).erasing = (s.bank bk).erasing := by
  by_cases hbk : bk = other
  case neg => rw [(kickBank_oneBank other s).bank_ne hbk]
  case pos =>
    subst hbk
    cases hactive : (s.bank bk).active with
    | some a => simp only [kickBank, hactive]
    | none =>
      cases hcontext : (s.bank bk).context with
      | none =>
        have hsame : kickBank bk s = s := by
          rcases (eraseInProgress_iff _).mp h with hstate | hstate | hstate <;>
            simp only [kickBank, hactive, hstate, hcontext]
        rw [hsame]
      | some c =>
        rcases (eraseInProgress_iff _).mp h with hstate | hstate | hstate
        · rw [kickBank_of_erase hactive hstate hcontext]
          exact decideSuspend_erasing h hcontext
        · rw [kickBank_of_busy (.inr (.inr (.inl hstate)))]
        · rw [kickBank_of_suspended hactive hstate hcontext]
          exact chooseSuspended_erasing _ hstate

theorem settle_erasing {s : State} {bk : BankId} (h : (s.bank bk).eraseInProgress = true) :
    ((settle s).bank bk).erasing = (s.bank bk).erasing := by
  have harbitrate : ((arbitrate 32 s).bank bk).erasing = (s.bank bk).erasing :=
    erasing_of_work (work_of_besideMover (bank_of_besideMover (arbitrate_besideMover 32 s) bk))
  have hrunning : ((arbitrate 32 s).bank bk).eraseInProgress = true := (congrArg Prod.fst harbitrate).trans h
  have hfirst := kickBank_erasing .a hrunning
  exact (kickBank_erasing .b ((congrArg Prod.fst hfirst).trans hrunning)).trans (hfirst.trans harbitrate)

/-! ## A bank at rest with no erase in progress -/

/-- The bank is at rest and no erase is in progress (R152, R155). -/
def BankCtl.calm (k : BankCtl) : Bool := k.atRest && !k.eraseInProgress

theorem calm_iff (k : BankCtl) : k.calm = true ↔
    k.programInProgress = false ∧ k.programHeld = false ∧ k.eraseInProgress = false := by
  simp only [BankCtl.calm, BankCtl.atRest, BankCtl.eraseRunning, BankCtl.eraseInProgress, Bool.and_eq_true,
    Bool.not_eq_true', Bool.or_eq_false_iff]
  exact ⟨fun ⟨⟨⟨hp, hh⟩, _⟩, he⟩ => ⟨hp, hh, he⟩, fun ⟨hp, hh, he⟩ => ⟨⟨⟨hp, hh⟩, he.1⟩, he⟩⟩

theorem foldl_earlier_isSome (l : List (ReqClass × Nat)) (x : ReqClass × Nat) :
    (l.foldl earlier (some x)).isSome = true := by
  induction l generalizing x with
  | nil => rfl
  | cons y l ih =>
    rw [List.foldl_cons, earlier]
    split
    · exact ih y
    · exact ih x

/-- R98: where no request is chosen, none waits. -/
theorem of_oldest_none {k : BankCtl} {p : ReqClass → ReqOp → Bool} (h : k.oldest p = none) {c : ReqClass} {q : Request}
    (hslot : k.slot c = some q) : p c q.op = false := by
  by_contra hp
  have hmem : (c, q.moment) ∈ k.waiting p := mem_waiting_iff.mpr ⟨q, hslot, by simpa using hp, rfl⟩
  obtain ⟨y, l, hl⟩ := List.exists_cons_of_ne_nil (List.ne_nil_of_mem hmem)
  have hsome := foldl_earlier_isSome l y
  rw [oldest_eq, hl, List.foldl_cons, Option.map_eq_none_iff] at h
  rw [show l.foldl earlier (some y) = none from h] at hsome
  cases hsome

theorem oldest_congr {k x : BankCtl} (h : ∀ c, BankCtl.sameSlot c k x) (p : ReqClass → ReqOp → Bool) :
    x.oldest p = k.oldest p := by
  simp only [BankCtl.oldest]
  refine congrArg (fun l => (l.foldl earlier none).map Prod.fst) (List.filterMap_congr fun c _ => ?_)
  have hc := h c
  rw [BankCtl.sameSlot] at hc
  cases hk : k.slot c <;> cases hx : x.slot c <;> simp_all

theorem action_of_not_program {op : ReqOp} (f : Flash) (h : op.isProgram = false) : (op.action f).isProgram = false := by
  cases op
  case readSlot => rfl
  case readEntry => rfl
  case readDescriptor => rfl
  all_goals cases h

theorem beginAction_calm {s : State} {bk : BankId} (c : ReqClass) {a : Action} (ha : a.isProgram = false)
    (h : (s.bank bk).calm = true) : ((beginAction bk c a s).bank bk).calm = true := by
  obtain ⟨-, hheld, herase⟩ := (calm_iff _).mp h
  have hslot : ∀ d, BankCtl.sameSlot d (s.bank bk) ((beginAction bk c a s).bank bk) := fun d => by
    rw [bank_beginAction]
    refine (markBegun_sameSlot _ c d).trans ?_
    cases d <;> rfl
  refine (calm_iff _).mpr ⟨?_, ?_, ?_⟩
  · rw [bank_beginAction]
    exact ha
  · rw [BankCtl.programHeld, oldest_congr hslot]
    exact hheld
  · rw [bank_beginAction, ha]
    have hstate : (s.bank bk).state ≠ .suspended := fun hs => by simp [BankCtl.eraseInProgress, hs] at herase
    simp only [if_neg hstate]
    rfl

theorem beginClass_calm {s : State} {bk : BankId} (c : ReqClass) (h : (s.bank bk).calm = true) :
    ((beginClass bk c s).bank bk).calm = true := by
  unfold beginClass
  split
  case h_1 q hslot =>
    have hnone : (s.bank bk).oldest (fun _ op => op.isProgram) = none := by
      simpa [BankCtl.programHeld] using ((calm_iff _).mp h).2.1
    exact beginAction_calm c (action_of_not_program _ (of_oldest_none hnone hslot)) h
  case h_2 => exact h

theorem chooseIdle_calm {s : State} {bk : BankId} (hrestart : s.drain.restartPending = true)
    (h : (s.bank bk).calm = true) : ((chooseIdle bk s).bank bk).calm = true := by
  simp only [chooseIdle]
  split
  · exact beginAction_calm .host rfl h
  · split
    · exact beginClass_calm _ h
    · split
      · rw [if_pos (by simp [hrestart])]
        exact h
      · exact h

/-- R98, R112: with restart-pending set, a bank at rest with no erase in progress stays so. -/
theorem kickBank_calm {s : State} {bk : BankId} (other : BankId) (hrestart : s.drain.restartPending = true)
    (h : (s.bank bk).calm = true) : ((kickBank other s).bank bk).calm = true := by
  by_cases hbk : bk = other
  case neg => rw [(kickBank_oneBank other s).bank_ne hbk]; exact h
  case pos =>
    subst hbk
    obtain ⟨-, -, herase⟩ := (calm_iff _).mp h
    cases hactive : (s.bank bk).active with
    | some a => simpa only [kickBank, hactive] using h
    | none =>
      cases hstate : (s.bank bk).state
      case idle =>
        rw [kickBank_of_idle hactive hstate]
        exact chooseIdle_calm hrestart h
      case read => rw [kickBank_of_busy (.inl hstate)]; exact h
      case program => rw [kickBank_of_busy (.inr (.inl hstate))]; exact h
      case resetting => rw [kickBank_of_busy (.inr (.inr (.inr hstate)))]; exact h
      all_goals simp [BankCtl.eraseInProgress, hstate] at herase

theorem kickBanks_calm {s : State} (bk : BankId) (hrestart : s.drain.restartPending = true)
    (h : (s.bank bk).calm = true) : ((kickBanks s).bank bk).calm = true := by
  have hdrain : (kickBank .a s).drain.restartPending = true := by
    rw [(kickBank_oneBank .a s).frame.drain]
    exact hrestart
  exact kickBank_calm .b hdrain (kickBank_calm .a hrestart h)

/-! ## Every fitted bank -/

theorem allBanks_iff (s : State) (p : BankCtl → Bool) :
    s.allBanks p = true ↔ ∀ bk, strapPresent s.service.strap bk = true → p (s.bank bk) = true := by
  have ha : strapPresent s.service.strap .a = true := by cases s.service.strap <;> rfl
  simp only [State.allBanks, Bool.and_eq_true, Bool.or_eq_true, Bool.not_eq_true']
  constructor
  · rintro ⟨hA, hB⟩ bk hbk
    cases bk
    · exact hA
    · exact hB.resolve_left (by simp [hbk])
  · refine fun h => ⟨h .a ha, ?_⟩
    cases hb : strapPresent s.service.strap .b
    · exact .inl rfl
    · exact .inr (h .b hb)

end Sys2Proof.Machine
end

section
/-! SUPPORT. PFAIL released at the bank controllers (R112) and at drain control (R156). -/

-- In order: as one text the package would start more threads than memory has stacks for.
set_option Elab.async false

namespace Sys2Proof.Machine

/-! ## The DRAINED line and the power holds (R112, R156) -/

/-- The state with PFAIL released at the bank controllers and the DRAINED line fallen. -/
def State.unheld (s : State) : State := dropLine (releaseBanks (setPfail false s))

theorem unheld_eq (s : State) : s.unheld = { s with
    pins := { s.pins with pfail := false }
    drain := { s.drain with line := false }
    bankA := s.unheld.bankA
    bankB := s.unheld.bankB } := by
  have hframe := releaseBanks_frame (setPfail false s)
  rw [State.unheld, hframe]
  rfl

theorem unheld_state (s : State) : s.unheld.service.state = s.service.state := by rw [unheld_eq]

theorem unheld_bank (bk : BankId) (s : State) : s.unheld.bank bk =
    { s.bank bk with context := (s.bank bk).context.map fun c => { c with powerHold := false } } := by
  cases bk <;> rfl

theorem unheld_calm (bk : BankId) (s : State) : (s.unheld.bank bk).calm = (s.bank bk).calm := by
  rw [unheld_bank]; rfl

theorem unheld_eraseInProgress (bk : BankId) (s : State) :
    (s.unheld.bank bk).eraseInProgress = (s.bank bk).eraseInProgress := by rw [unheld_bank]; rfl

/-! ## Drain control (R156) -/

/-- The state in which the drain's condition is tested at the release. -/
def State.releaseHeard (s : State) : State := settle (releaseAtDrain (releaseBanks (setPfail false s)))

theorem exec_pfailReleased {s : State} (h : s.pins.pfail = true) :
    exec .pfailReleased s = .next (settle (testDrain s.releaseHeard)) := congrArg Host.Outcome.next (if_pos h)

theorem releaseAtDrain_of_restart {s : State} (h : s.service.state = .drained) (hrestart : s.drain.restartPending = true) :
    releaseAtDrain (releaseBanks (setPfail false s)) = internalReset s.unheld := by
  have hstate : s.unheld.service.state = .drained := (unheld_state s).trans h
  have hpending : s.unheld.drain.restartPending = true := by rw [unheld_eq]; exact hrestart
  simp only [releaseAtDrain]
  rw [← State.unheld, hstate]
  exact if_pos hpending

theorem releaseAtDrain_of_active {s : State} (h : s.service.state = .drained) (hrestart : s.drain.restartPending = false)
    (hreturn : s.drain.returnState = some .active) :
    releaseAtDrain (releaseBanks (setPfail false s)) = enterActive (setReturn none s.unheld) := by
  have hstate : s.unheld.service.state = .drained := (unheld_state s).trans h
  have hdrain : s.unheld.drain = { s.drain with line := false } := by rw [unheld_eq]
  simp only [releaseAtDrain]
  rw [← State.unheld, hstate]
  simp only [hdrain, hrestart, hreturn]
  rfl

theorem releaseAtDrain_of_unformatted {s : State} (h : s.service.state = .drained)
    (hrestart : s.drain.restartPending = false) (hreturn : s.drain.returnState = some .unformatted) :
    releaseAtDrain (releaseBanks (setPfail false s)) = setReturn none (s.unheld.setService .unformatted) := by
  have hstate : s.unheld.service.state = .drained := (unheld_state s).trans h
  have hdrain : s.unheld.drain = { s.drain with line := false } := by rw [unheld_eq]
  simp only [releaseAtDrain]
  rw [← State.unheld, hstate]
  simp only [hdrain, hrestart, hreturn]
  rfl

theorem releaseAtDrain_of_draining {s : State} (h : s.service.state = .draining) :
    releaseAtDrain (releaseBanks (setPfail false s)) = serveErases s.unheld := by
  have hstate : s.unheld.service.state = .draining := (unheld_state s).trans h
  simp only [releaseAtDrain]
  rw [← State.unheld, hstate]

theorem releaseAtDrain_of_other {s : State} (h : s.service.state = .mounting ∨ s.service.state = .formatting) :
    releaseAtDrain (releaseBanks (setPfail false s)) = s.unheld := by
  have hstate := unheld_state s
  simp only [releaseAtDrain]
  rw [← State.unheld]
  rcases h with h | h <;> rw [hstate, h]

/-! ## What the release changes -/

theorem releaseAtDrain_line (s : State) : (releaseAtDrain s).pins = s.pins ∧ (releaseAtDrain s).drain.line = false := by
  simp only [releaseAtDrain]
  split
  case h_1 =>
    split
    · exact ⟨(internalReset_frame _).pins, congrArg Drain.line (internalReset_frame _).drain⟩
    · split
      · exact ⟨(enterActive_frame _).pins, congrArg Drain.line (enterActive_frame _).drain⟩
      · exact ⟨rfl, rfl⟩
      · exact ⟨rfl, rfl⟩
  case h_2 => exact ⟨(serveErases_frame _).pins, congrArg Drain.line (serveErases_frame _).drain⟩
  case h_6 => exact ⟨(serveErases_frame _).pins, congrArg Drain.line (serveErases_frame _).drain⟩
  all_goals exact ⟨rfl, rfl⟩

theorem releaseAtDrain_restart {s : State} (h : s.drain.restartPending = false) :
    (releaseAtDrain s).drain.restartPending = false := by
  simp only [releaseAtDrain]
  split
  case h_1 =>
    split
    · exact congrArg Drain.restartPending (internalReset_frame _).drain
    · split
      · exact (congrArg Drain.restartPending (enterActive_frame _).drain).trans h
      · exact h
      · exact h
  case h_2 => exact (congrArg Drain.restartPending (serveErases_frame _).drain).trans h
  case h_6 => exact (congrArg Drain.restartPending (serveErases_frame _).drain).trans h
  all_goals exact h

theorem testDrain_line {s : State} (hpfail : s.pins.pfail = false) (hline : s.drain.line = false) :
    (testDrain s).pins = s.pins ∧ (testDrain s).drain.line = false := by
  cases hready : s.drainReady
  · rw [testDrain_of_not_ready hready]
    exact ⟨rfl, hline⟩
  · rw [testDrain, if_pos hready]
    cases hrestart : s.drain.restartPending
    · rw [completeDrain_of_none hpfail hrestart]
      exact ⟨(enterActive_frame _).pins, (congrArg Drain.line (enterActive_frame _).drain).trans hline⟩
    · rw [completeDrain_of_restart hpfail hrestart]
      exact ⟨(internalReset_frame _).pins, congrArg Drain.line (internalReset_frame _).drain⟩

theorem settle_pins (s : State) : (settle s).pins = s.pins := congrArg Base.pins (settle_base s)

theorem releaseHeard_line (s : State) :
    s.releaseHeard.pins = { s.pins with pfail := false } ∧ s.releaseHeard.drain.line = false := by
  obtain ⟨hpins, hline⟩ := releaseAtDrain_line (releaseBanks (setPfail false s))
  refine ⟨(settle_pins _).trans (hpins.trans ?_), (congrArg Drain.line (drain_of_settle _)).trans hline⟩
  exact (releaseBanks_frame _).pins

theorem releaseHeard_pfail (s : State) : s.releaseHeard.pins.pfail = false := by rw [(releaseHeard_line s).1]

/-! ## The power holds (R112) -/

theorem serveErases_work (bk : BankId) (s : State) : ((serveErases s).bank bk).work = (s.bank bk).work :=
  work_of_besideMover (bank_of_besideMover (besideMover_of_besideErases (serveErases_besideErases s)) bk)

theorem enterActive_work (bk : BankId) (s : State) : ((enterActive s).bank bk).work = (s.bank bk).work := by
  refine (serveErases_work bk _).trans ?_
  exact work_of_besideMover (bank_of_besideMover (besideMover_of_besideErases (evaluateTriggers_besideErases _)) bk)

theorem releaseAtDrain_work {s : State} (bk : BankId) (h : s.drain.restartPending = false) :
    ((releaseAtDrain s).bank bk).work = (s.bank bk).work := by
  have hpending : ¬ (dropLine s).drain.restartPending = true := fun ht => Bool.false_ne_true (h.symm.trans ht)
  simp only [releaseAtDrain]
  split
  case h_1 =>
    rw [if_neg hpending]
    split
    · exact enterActive_work bk _
    · rfl
    · rfl
  case h_2 => exact serveErases_work bk _
  case h_6 => exact serveErases_work bk _
  all_goals rfl

theorem testDrain_work {s : State} (bk : BankId) (hpfail : s.pins.pfail = false) (h : s.drain.restartPending = false) :
    ((testDrain s).bank bk).work = (s.bank bk).work := by
  unfold testDrain
  split
  · rw [completeDrain_of_none hpfail h]
    exact enterActive_work bk _
  · rfl

end Sys2Proof.Machine
end

section
/-! PROOF. PFAIL is released (R112, R155, R156). -/

-- In order: as one text the package would start more threads than memory has stacks for.
set_option Elab.async false

namespace Sys2Proof.Machine

/-! ## Commits at rest (R152) -/

theorem commitsAtRest_congr {s t : State} (hstaging : t.staging = s.staging) (hmover : t.mover = s.mover) :
    t.commitsAtRest = s.commitsAtRest := by
  unfold State.commitsAtRest State.countEntries State.hasStuck State.findEntry State.entry State.moverIdle
  rw [hstaging, hmover]

theorem moverIdle_of_commitsAtRest {s : State} (h : s.commitsAtRest = true) : s.moverIdle = true :=
  (Bool.and_eq_true_iff.mp h).2

/-- R49: in DRAINING with commits at rest no source waits. -/
theorem granted_of_commitsAtRest {s : State} (hstate : s.service.state = .draining) (h : s.commitsAtRest = true) :
    s.granted = .none := by
  have hqueue : s.hasStuck = true ∨ s.staging.queue.isEmpty = true :=
    Bool.or_eq_true_iff.mp (Bool.and_eq_true_iff.mp (Bool.and_eq_true_iff.mp h).1).2
  refine granted_of_none_waits ?_ (by simp [State.reclaimWaits, hstate])
  rcases hqueue with h | h <;> simp [State.commitWaits, h]

/-! ## DRAINING (R155, R156) -/

section

variable {s : State}

theorem releaseHeard_of_draining (h : s.service.state = .draining) :
    s.releaseHeard = settle (serveErases s.unheld) := congrArg settle (releaseAtDrain_of_draining h)

theorem served_staging (s : State) : (serveErases s.unheld).staging = s.staging ∧
    (serveErases s.unheld).mover = s.mover ∧ (serveErases s.unheld).service = s.service := by
  have hframe := serveErases_frame s.unheld
  rw [hframe.staging, hframe.mover, hframe.service, unheld_eq]
  exact ⟨rfl, rfl, rfl⟩

/-- Under restart-pending no erase is started (R85). -/
theorem serveErases_of_restart (h : s.drain.restartPending = true) : serveErases s = s := by
  have hserve : ∀ bk, serveBank bk s = s := fun bk => if_pos (by simp [h])
  rw [serveErases, hserve, hserve]

theorem releaseHeard_of_rest (h : s.service.state = .draining) (hrest : s.commitsAtRest = true) :
    s.releaseHeard = kickBanks (serveErases s.unheld) := by
  obtain ⟨hstaging, hmover, hservice⟩ := served_staging s
  rw [releaseHeard_of_draining h]
  exact settle_of_not_granted (granted_of_commitsAtRest ((congrArg Service.state hservice).trans h)
    ((commitsAtRest_congr hstaging hmover).trans hrest))

theorem releaseHeard_of_busy (h : s.service.state = .draining) (hbusy : s.moverIdle = false) :
    s.releaseHeard = kickBanks (serveErases s.unheld) := by
  rw [releaseHeard_of_draining h]
  refine settle_of_busy ?_
  rw [State.moverIdle, (served_staging s).2.1]
  exact hbusy

theorem kicked_staging (s : State) : (kickBanks (serveErases s.unheld)).staging = s.staging ∧
    (kickBanks (serveErases s.unheld)).mover = s.mover := by
  have hframe := kickBanks_frame (serveErases s.unheld)
  rw [hframe.staging, hframe.mover]
  exact ⟨(served_staging s).1, (served_staging s).2.1⟩

theorem releaseHeard_kept (h : s.service.state = .draining) : s.releaseHeard.kept = s.unheld.kept := by
  rw [releaseHeard_of_draining h, settle_kept, serveErases_kept]

theorem releaseHeard_service (h : s.service.state = .draining) :
    s.releaseHeard.service = { s.service with latch := s.releaseHeard.service.latch } := by
  refine (service_of_kept (releaseHeard_kept h)).trans ?_
  rw [unheld_eq]

theorem releaseHeard_drain (h : s.service.state = .draining) :
    s.releaseHeard.drain = { s.drain with line := false } := by
  refine (congrArg Kept.drain (releaseHeard_kept h)).trans ?_
  exact congrArg State.drain (unheld_eq s)

theorem releaseHeard_pageMap (h : s.service.state = .draining) : s.releaseHeard.pageMap = s.pageMap :=
  (congrArg Kept.pageMap (releaseHeard_kept h)).trans (by rw [unheld_eq]; rfl)

theorem releaseHeard_arrays (h : s.service.state = .draining) : SameArrays s s.releaseHeard := by
  have hbase : s.releaseHeard.base = s.unheld.base := by
    rw [releaseHeard_of_draining h, settle_base, serveErases_base]
  refine sameArrays_of_flash ((congrArg Base.flashA hbase).trans ?_) ((congrArg Base.flashB hbase).trans ?_)
  · rw [unheld_eq]; rfl
  · rw [unheld_eq]; rfl

theorem releaseHeard_draining (h : s.service.state = .draining) : s.releaseHeard.service.state = .draining := by
  rw [releaseHeard_service h]
  exact h

/-- R155: without restart-pending the drain waits for the commits alone. -/
theorem drainReady_of_none (hstate : s.service.state = .draining) (hpfail : s.pins.pfail = false)
    (hrestart : s.drain.restartPending = false) : s.drainReady = s.commitsAtRest := by
  simp [State.drainReady, hstate, hpfail, hrestart]

theorem drainReady_of_restart (hstate : s.service.state = .draining) (hpfail : s.pins.pfail = false)
    (hrestart : s.drain.restartPending = true) :
    s.drainReady = (s.drainDone && s.allBanks fun k => !k.eraseInProgress) := by
  simp [State.drainReady, hstate, hpfail, hrestart]

theorem releaseHeard_restart (h : s.service.state = .draining) :
    s.releaseHeard.drain.restartPending = s.drain.restartPending := by rw [releaseHeard_drain h]

theorem testDrain_of_ready {t : State} (h : t.drainReady = true) : testDrain t = completeDrain t := if_pos h

/-- R156: commits at rest and no restart pending, the part returns to ACTIVE. -/
theorem released_of_commitsAtRest (h : s.service.state = .draining) (hrestart : s.drain.restartPending = false)
    (hrest : s.commitsAtRest = true) : (settle (testDrain s.releaseHeard)).service.state = .active ∧
      (settle (testDrain s.releaseHeard)).drain.returnState = none := by
  have hpending := (releaseHeard_restart h).trans hrestart
  have hpfail := releaseHeard_pfail s
  have hready : s.releaseHeard.drainReady = true := by
    rw [drainReady_of_none (releaseHeard_draining h) hpfail hpending, releaseHeard_of_rest h hrest,
      commitsAtRest_congr (kicked_staging s).1 (kicked_staging s).2, hrest]
  have hframe := enterActive_frame (setReturn none s.releaseHeard)
  rw [state_of_settle, drain_of_settle, testDrain_of_ready hready, completeDrain_of_none hpfail hpending,
    hframe.service, hframe.drain]
  exact ⟨rfl, rfl⟩

theorem released_of_not_ready (h : s.service.state = .draining) (hready : s.releaseHeard.drainReady = false) :
    (settle (testDrain s.releaseHeard)).service.state = .draining ∧
      (settle (testDrain s.releaseHeard)).drain.returnState = s.drain.returnState := by
  rw [state_of_settle, drain_of_settle, testDrain_of_not_ready hready, releaseHeard_drain h]
  exact ⟨releaseHeard_draining h, rfl⟩

/-- R152: with a commit in progress the drain goes on. -/
theorem released_of_busy (h : s.service.state = .draining) (hrestart : s.drain.restartPending = false)
    (hbusy : s.moverIdle = false) : s.releaseHeard.drainReady = false := by
  have hrest : s.commitsAtRest = false :=
    Bool.eq_false_of_not_eq_true fun hr => by simp [moverIdle_of_commitsAtRest hr] at hbusy
  rw [drainReady_of_none (releaseHeard_draining h) (releaseHeard_pfail s) ((releaseHeard_restart h).trans hrestart),
    releaseHeard_of_busy h hbusy, commitsAtRest_congr (kicked_staging s).1 (kicked_staging s).2, hrest]

/-! ## DRAINING under restart-pending (R155, R161) -/

theorem unheld_restart (s : State) : s.unheld.drain.restartPending = s.drain.restartPending := by rw [unheld_eq]

theorem drainDone_iff (t : State) : (t.drainDone && t.allBanks fun k => !k.eraseInProgress) = true ↔
    t.commitsAtRest = true ∧ ∀ bk, strapPresent t.service.strap bk = true → (t.bank bk).calm = true := by
  simp only [State.drainDone, State.banksAtRest, Bool.and_eq_true, allBanks_iff, BankCtl.calm]
  exact ⟨fun ⟨⟨hrest, hat⟩, hno⟩ => ⟨hrest, fun bk hbk => ⟨hat bk hbk, hno bk hbk⟩⟩,
    fun ⟨hrest, hcalm⟩ => ⟨⟨hrest, fun bk hbk => (hcalm bk hbk).1⟩, fun bk hbk => (hcalm bk hbk).2⟩⟩

/-- R155: drain done and no erase in progress, the part makes the internal reset. -/
theorem released_of_drainDone (h : s.service.state = .draining) (hrestart : s.drain.restartPending = true)
    (hdone : s.drainDone = true) (hno : (s.allBanks fun k => !k.eraseInProgress) = true) :
    s.releaseHeard.drainReady = true := by
  have hpending := (releaseHeard_restart h).trans hrestart
  obtain ⟨hrest, hcalm⟩ := (drainDone_iff s).mp (by rw [hdone, hno]; rfl)
  rw [drainReady_of_restart (releaseHeard_draining h) (releaseHeard_pfail s) hpending, drainDone_iff]
  have hkick := releaseHeard_of_rest h hrest
  refine ⟨?_, fun bk hbk => ?_⟩
  · rw [hkick, commitsAtRest_congr (kicked_staging s).1 (kicked_staging s).2, hrest]
  · rw [releaseHeard_service h] at hbk
    have hheld : s.unheld.drain.restartPending = true := (unheld_restart s).trans hrestart
    rw [hkick, serveErases_of_restart hheld]
    exact kickBanks_calm bk hheld ((unheld_calm bk s).trans (hcalm bk hbk))

/-- R155: with an erase in progress the drain goes on. -/
theorem released_of_erase (h : s.service.state = .draining) (hrestart : s.drain.restartPending = true)
    (hyes : (s.allBanks fun k => !k.eraseInProgress) = false) : s.releaseHeard.drainReady = false := by
  have hpending := (releaseHeard_restart h).trans hrestart
  refine Bool.eq_false_of_not_eq_true fun hready => ?_
  rw [drainReady_of_restart (releaseHeard_draining h) (releaseHeard_pfail s) hpending, drainDone_iff] at hready
  refine Bool.false_ne_true (hyes.symm.trans ((allBanks_iff s _).mpr fun bk hbk => ?_))
  have hno := ((calm_iff _).mp (hready.2 bk (by rw [releaseHeard_service h]; exact hbk))).2.2
  cases hbank : (s.bank bk).eraseInProgress
  · rfl
  · have hheld : s.unheld.drain.restartPending = true := (unheld_restart s).trans hrestart
    have herase : (s.unheld.bank bk).eraseInProgress = true := (unheld_eraseInProgress bk s).trans hbank
    have hgoes := (congrArg Prod.fst (settle_erasing herase)).trans herase
    rw [releaseHeard_of_draining h, serveErases_of_restart hheld] at hno
    cases hno.symm.trans hgoes

end

/-! ## The power holds (R112) -/

/-- R112: after the release the erase goes on without power hold. -/
theorem released_erasing {s : State} {bk : BankId} {c : EraseContext} (hrestart : s.drain.restartPending = false)
    (hcontext : (s.bank bk).context = some c)
    (hstate : (s.bank bk).state = .suspending ∨ (s.bank bk).state = .suspended) :
    ((settle (testDrain s.releaseHeard)).bank bk).erasing = (true, some (c.block, c.suspendCount, false)) := by
  have hrelease : ((releaseBanks (setPfail false s)).bank bk).erasing =
      (true, some (c.block, c.suspendCount, false)) := by
    have hbank : (releaseBanks (setPfail false s)).bank bk = s.unheld.bank bk := by cases bk <;> rfl
    rw [hbank, unheld_bank, BankCtl.erasing, hcontext]
    exact Prod.ext ((eraseInProgress_iff _).mpr (.inr hstate)) rfl
  have hpending : (releaseBanks (setPfail false s)).drain.restartPending = false := by
    rw [(releaseBanks_frame _).drain]
    exact hrestart
  have hdrain := (erasing_of_work (releaseAtDrain_work bk hpending)).trans hrelease
  have hheard := (settle_erasing (congrArg Prod.fst hdrain)).trans hdrain
  have hafter : s.releaseHeard.drain.restartPending = false :=
    (congrArg Drain.restartPending (drain_of_settle _)).trans (releaseAtDrain_restart hpending)
  have htest := (erasing_of_work (testDrain_work bk (releaseHeard_pfail s) hafter)).trans hheard
  exact (settle_erasing (congrArg Prod.fst htest)).trans htest

/-! ## The statement -/

/-- R156: a DRAINED part that returns is not DRAINING, and nothing is left to test. -/
theorem released_of_drained {s d : State} {x : ServiceState} (hd : releaseAtDrain (releaseBanks (setPfail false s)) = d)
    (hstate : d.service.state = x) (hx : x ≠ .draining) (hreturn : d.drain.returnState = none) :
    (settle (testDrain s.releaseHeard)).service.state = x ∧
      (settle (testDrain s.releaseHeard)).drain.returnState = none := by
  have hheard : s.releaseHeard = settle d := congrArg settle hd
  have hsame : s.releaseHeard.service.state = x := by rw [hheard, state_of_settle, hstate]
  rw [testDrain_of_state (by rw [hsame]; exact hx), state_of_settle, drain_of_settle, hheard, state_of_settle,
    drain_of_settle]
  exact ⟨hstate, hreturn⟩

/-- Settles O37: what hears the release, the test of the drain's condition, and what the banks then choose. -/
theorem pfailReleasedEndsTheDrain : Obligations.PfailReleasedEndsTheDrain := by
  intro s hpfail
  obtain ⟨hpins, hline⟩ := releaseHeard_line s
  have hlevel := releaseHeard_pfail s
  obtain ⟨htestPins, htestLine⟩ := testDrain_line hlevel hline
  refine ⟨_, exec_pfailReleased hpfail, (settle_pins _).trans (htestPins.trans hpins),
    (congrArg Drain.line (drain_of_settle _)).trans htestLine, fun h hr hret => ?toActive, fun h hr hret => ?toUnformatted,
    fun h hr => ?reset, fun h => ?draining, fun h => ?others, fun hr bk c hc hstate => ?banks⟩
  case toActive =>
    have hframe := enterActive_frame (setReturn none s.unheld)
    exact released_of_drained (releaseAtDrain_of_active h hr hret) (congrArg Service.state hframe.service) (by decide)
      (congrArg Drain.returnState hframe.drain)
  case toUnformatted => exact released_of_drained (releaseAtDrain_of_unformatted h hr hret) rfl (by decide) rfl
  case reset =>
    have hheard : s.releaseHeard = internalReset s.unheld :=
      (congrArg settle (releaseAtDrain_of_restart h hr)).trans (settle_internalReset _)
    have hstate := internalReset_state s.unheld
    rw [hheard, testDrain_of_state (by rw [hstate]; decide), settle_internalReset]
    refine ⟨hstate, congrArg Drain.restartPending (internalReset_frame _).drain, ?_, ?_⟩
    · exact congrArg Mgmt.flags (internalReset_frame _).mgmt
    · rw [params_of_settings (internalReset_settings _), unheld_eq]
  case draining =>
    refine ⟨s.releaseHeard, rfl, releaseHeard_service h, ?pins, releaseHeard_drain h, releaseHeard_pageMap h,
      releaseHeard_arrays h, fun hbusy => ?busy, released_of_not_ready h, fun hr => ⟨released_of_commitsAtRest h hr,
      fun hbusy => (released_of_not_ready h (released_of_busy h hr hbusy)).1⟩, fun hr => ⟨fun hdone hno => ?done,
      fun hyes => (released_of_not_ready h (released_of_erase h hr hyes)).1⟩⟩
    case pins => exact ((settle_pins _).trans htestPins).symm
    case busy =>
      rw [releaseHeard_of_busy h hbusy]
      exact kicked_staging s
    case done =>
      have hreset : testDrain s.releaseHeard = internalReset s.releaseHeard :=
        (testDrain_of_ready (released_of_drainDone h hr hdone hno)).trans
          (completeDrain_of_restart hlevel ((releaseHeard_restart h).trans hr))
      rw [hreset, settle_internalReset]
      exact ⟨internalReset_state _, congrArg Drain.restartPending (internalReset_frame _).drain⟩
  case others =>
    have hheard : s.releaseHeard.service.state = s.service.state := by
      rw [State.releaseHeard, releaseAtDrain_of_other h, state_of_settle, unheld_state]
    rw [state_of_settle, testDrain_of_state (by rw [hheard]; rcases h with h | h <;> (rw [h]; decide))]
    exact hheard
  case banks =>
    obtain ⟨-, hcontext⟩ := Prod.mk.inj (released_erasing hr hc hstate)
    obtain ⟨c', hc', hlasting⟩ := Option.map_eq_some_iff.mp hcontext
    obtain ⟨hblock, hrest⟩ := Prod.mk.inj hlasting
    obtain ⟨hcount, hhold⟩ := Prod.mk.inj hrest
    exact ⟨c', hc', hhold, hblock, hcount⟩

end Sys2Proof.Machine
end

section
/-! SUPPORT. The frame receiver is of no account to the bank controllers and the block manager (R163): each of their
operations commutes with replacing it. -/

-- In order: as one text the package would start more threads than memory has stacks for.
set_option Elab.async false

namespace Sys2Proof.Machine

/-- A choice whose condition does not look at the receiver. -/
theorem ite_setReceiver {r : Receiver} {p : Prop} [Decidable p] {a b x y : State} (ha : x = a.setReceiver r)
    (hb : y = b.setReceiver r) : (if p then x else y) = (if p then a else b).setReceiver r := by
  split
  · exact ha
  · exact hb

/-! ## What is read of the state -/

section

variable (s : State) (r : Receiver)

@[simp] theorem bank_setReceiver (bk : BankId) : (s.setReceiver r).bank bk = s.bank bk := by cases bk <;> rfl
@[simp] theorem flash_setReceiver (bk : BankId) : (s.setReceiver r).flash bk = s.flash bk := by cases bk <;> rfl
@[simp] theorem entry_setReceiver (i : Fin 8) : (s.setReceiver r).entry i = s.entry i := rfl
@[simp] theorem findEntry_setReceiver (p : Entry → Bool) : (s.setReceiver r).findEntry p = s.findEntry p := rfl
@[simp] theorem mapped_setReceiver (page : Nat) : (s.setReceiver r).mapped page = s.mapped page := rfl
@[simp] theorem triggered_setReceiver : (s.setReceiver r).triggered = s.triggered := rfl
@[simp] theorem poolChoice_setReceiver : (s.setReceiver r).poolChoice = s.poolChoice := rfl
@[simp] theorem mayTake_setReceiver (q : Requester) : (s.setReceiver r).mayTake q = s.mayTake q := rfl

/-! ## Bank controllers -/

@[simp] theorem setBank_setReceiver (bk : BankId) (k : BankCtl) :
    (s.setReceiver r).setBank bk k = (s.setBank bk k).setReceiver r := by cases bk <;> rfl

@[simp] theorem handOver_setReceiver (bk : BankId) (c : ReqClass) (op : ReqOp) :
    handOver bk c op (s.setReceiver r) = (handOver bk c op s).setReceiver r := by simp [handOver]

@[simp] theorem handErase_setReceiver (q : EraseRequest) :
    handErase q (s.setReceiver r) = (handErase q s).setReceiver r := by simp [handErase]

@[simp] theorem beginAction_setReceiver (bk : BankId) (c : ReqClass) (a : Action) :
    beginAction bk c a (s.setReceiver r) = (beginAction bk c a s).setReceiver r := by simp [beginAction]

@[simp] theorem beginClass_setReceiver (bk : BankId) (c : ReqClass) :
    beginClass bk c (s.setReceiver r) = (beginClass bk c s).setReceiver r := by
  simp only [beginClass, bank_setReceiver, flash_setReceiver]
  split
  · exact beginAction_setReceiver ..
  · rfl

@[simp] theorem beginErase_setReceiver (bk : BankId) (q : EraseRequest) :
    beginErase bk q (s.setReceiver r) = (beginErase bk q s).setReceiver r := by simp [beginErase]

@[simp] theorem requestSuspend_setReceiver (bk : BankId) (cause : SuspendCause) (hold : Bool) :
    requestSuspend bk cause hold (s.setReceiver r) = (requestSuspend bk cause hold s).setReceiver r := by
  simp [requestSuspend]

@[simp] theorem resumeErase_setReceiver (bk : BankId) :
    resumeErase bk (s.setReceiver r) = (resumeErase bk s).setReceiver r := by simp [resumeErase]

theorem chooseIdle_setReceiver (bk : BankId) : chooseIdle bk (s.setReceiver r) = (chooseIdle bk s).setReceiver r := by
  unfold chooseIdle
  rw [bank_setReceiver]
  dsimp only
  split
  · exact beginAction_setReceiver ..
  · split
    · exact beginClass_setReceiver ..
    · split
      · exact ite_setReceiver rfl (beginErase_setReceiver ..)
      · rfl

theorem chooseSuspended_setReceiver (bk : BankId) (hold : Bool) :
    chooseSuspended bk hold (s.setReceiver r) = (chooseSuspended bk hold s).setReceiver r := by
  unfold chooseSuspended
  rw [bank_setReceiver]
  dsimp only
  split
  · exact beginAction_setReceiver ..
  · split
    · exact beginClass_setReceiver ..
    · exact ite_setReceiver rfl (resumeErase_setReceiver ..)

theorem decideSuspend_setReceiver (bk : BankId) (c : EraseContext) :
    decideSuspend bk c (s.setReceiver r) = (decideSuspend bk c s).setReceiver r := by
  unfold decideSuspend
  rw [bank_setReceiver]
  exact ite_setReceiver (requestSuspend_setReceiver ..) rfl

theorem kickBank_setReceiver (bk : BankId) : kickBank bk (s.setReceiver r) = (kickBank bk s).setReceiver r := by
  unfold kickBank
  rw [bank_setReceiver]
  dsimp only
  split
  · rfl
  · split
    case h_1 => exact chooseIdle_setReceiver ..
    case h_2 =>
      split
      · exact chooseSuspended_setReceiver ..
      · rfl
    case h_3 =>
      split
      · exact decideSuspend_setReceiver ..
      · rfl
    all_goals rfl

@[simp] theorem kickBanks_setReceiver : kickBanks (s.setReceiver r) = (kickBanks s).setReceiver r := by
  rw [kickBanks, kickBank_setReceiver, kickBank_setReceiver, kickBanks]

/-! ## The block manager -/

/-- The queued block becomes ERASING and its erase is handed to its bank (R85). -/
def State.startErase (s : State) (b : BlockRef) : State :=
  let s1 := s.modifyRecord b fun r => { r with state := .erasing }
  handErase { block := b, requester := .blockManager }
    { s1 with blocks := { s1.blocks with eraseQueue := s1.blocks.eraseQueue.erase b } }

theorem startErase_setReceiver (b : BlockRef) : (s.setReceiver r).startErase b = (s.startErase b).setReceiver r :=
  handErase_setReceiver { s with blocks := _ } r _

theorem serveBank_setReceiver (bk : BankId) : serveBank bk (s.setReceiver r) = (serveBank bk s).setReceiver r := by
  refine ite_setReceiver rfl ?_
  rw [setReceiver_blocks]
  split
  · exact startErase_setReceiver ..
  · rfl

@[simp] theorem serveErases_setReceiver : serveErases (s.setReceiver r) = (serveErases s).setReceiver r := by
  rw [serveErases, serveBank_setReceiver, serveBank_setReceiver, serveErases]

@[simp] theorem joinErase_setReceiver (b : BlockRef) : joinErase b (s.setReceiver r) = (joinErase b s).setReceiver r :=
  serveErases_setReceiver { s with blocks := _ } r

theorem chooseVictim_setReceiver (kind : ReclaimKind) (b : BlockRef) :
    chooseVictim kind b (s.setReceiver r) = (chooseVictim kind b s).setReceiver r := rfl

@[simp] theorem evaluateTriggers_setReceiver :
    evaluateTriggers (s.setReceiver r) = (evaluateTriggers s).setReceiver r := by
  refine ite_setReceiver ?_ rfl
  rw [triggered_setReceiver]
  split
  · exact chooseVictim_setReceiver ..
  · rfl

@[simp] theorem finishVictim_setReceiver : finishVictim (s.setReceiver r) = (finishVictim s).setReceiver r := by
  unfold finishVictim
  rw [setReceiver_blocks]
  split
  case h_1 v _ =>
    refine (congrArg evaluateTriggers (joinErase_setReceiver { s with blocks := _ } r v)).trans ?_
    exact evaluateTriggers_setReceiver ..
  case h_2 => rfl

theorem takeSlot_setReceiver (b : BlockRef) (n : Nat) :
    takeSlot b n (s.setReceiver r) = (takeSlot b n s).setReceiver r :=
  ite_setReceiver (evaluateTriggers_setReceiver { s with blocks := _ } r) rfl

theorem takeBlock_setReceiver (b : BlockRef) (x : BlockRecord) :
    takeBlock b x (s.setReceiver r) = (takeBlock b x s).setReceiver r := by
  refine (congrArg (handOver _ .mover _) (evaluateTriggers_setReceiver { s with blocks := _, mover := _ } r)).trans ?_
  exact handOver_setReceiver ..

/-- R75: the answer does not depend on the receiver, and what is taken does not touch it. -/
theorem slotRequest_setReceiver (q : Requester) :
    slotRequest q (s.setReceiver r) = ((slotRequest q s).1, (slotRequest q s).2.setReceiver r) := by
  unfold slotRequest
  rw [setReceiver_blocks, poolChoice_setReceiver, mayTake_setReceiver]
  split
  · exact congrArg (Prod.mk _) (takeSlot_setReceiver ..)
  · split
    · split
      · exact congrArg (Prod.mk _) (takeBlock_setReceiver ..)
      · rfl
    · rfl

@[simp] theorem enterActive_setReceiver : enterActive (s.setReceiver r) = (enterActive s).setReceiver r := by
  rw [enterActive, show (s.setReceiver r).setService .active = (s.setService .active).setReceiver r from rfl,
    evaluateTriggers_setReceiver, serveErases_setReceiver, enterActive]

end

end Sys2Proof.Machine
end

section
/-! SUPPORT. The frame receiver is of no account to the staging buffer, the page mover and the arbiter (R163). -/

-- In order: as one text the package would start more threads than memory has stacks for.
set_option Elab.async false

namespace Sys2Proof.Machine

variable (s : State) (r : Receiver)

/-! ## The staging buffer -/

@[simp] theorem waiting_setReceiver (w : Wait) : (s.setReceiver r).waiting w = s.waiting w := rfl
@[simp] theorem gatheringFor_setReceiver (page : Nat) : (s.setReceiver r).gatheringFor page = s.gatheringFor page := rfl
@[simp] theorem emptyEntry_setReceiver : (s.setReceiver r).emptyEntry = s.emptyEntry := rfl

theorem completeCycle_setReceiver (fault : Bool) (data : Option HalfWord) :
    completeCycle fault data (s.setReceiver r) = (completeCycle fault data s).setReceiver r := by
  unfold completeCycle
  rw [setReceiver_port]
  split <;> rfl

@[simp] theorem refuseHeld_setReceiver : refuseHeld (s.setReceiver r) = (refuseHeld s).setReceiver r := by
  unfold refuseHeld
  rw [waiting_setReceiver]
  split
  · exact congrArg (State.setFlag · .writeRefused) (completeCycle_setReceiver ..)
  · rfl

theorem closeEntry_setReceiver (i : Fin 8) : closeEntry i (s.setReceiver r) = (closeEntry i s).setReceiver r :=
  ite_setReceiver rfl rfl

theorem closeList_setReceiver (l : List (Fin 8)) : l.foldl (fun acc i => closeEntry i acc) (s.setReceiver r) =
    (l.foldl (fun acc i => closeEntry i acc) s).setReceiver r := by
  induction l generalizing s with
  | nil => rfl
  | cons i l ih => rw [List.foldl_cons, List.foldl_cons, closeEntry_setReceiver, ih]

@[simp] theorem closeAll_setReceiver : closeAll (s.setReceiver r) = (closeAll s).setReceiver r := by
  have horder : (s.setReceiver r).gatheringInOrder = s.gatheringInOrder :=
    gatheringInOrder_congr (fun _ => rfl) fun _ => rfl
  rw [closeAll, horder]
  exact closeList_setReceiver s r s.gatheringInOrder

/-- The state after a merge before the entry's close is considered (R26, R29). -/
def State.withMerged (s : State) (i : Fin 8) (o : Nat) (lower upper : Bool) (data : HalfWord) : State :=
  completeCycle false none ((s.setEntry i (mergedEntry (s.entry i) s.mgmt.params.commitDelay o lower upper data)).bump
    .hostWrites)

theorem withMerged_setReceiver (i : Fin 8) (o : Nat) (lower upper : Bool) (data : HalfWord) :
    (s.setReceiver r).withMerged i o lower upper data = (s.withMerged i o lower upper data).setReceiver r :=
  completeCycle_setReceiver ((s.setEntry i _).bump .hostWrites) r false none

theorem mergeWrite_setReceiver (i : Fin 8) (o : Nat) (lower upper : Bool) (data : HalfWord) :
    mergeWrite i o lower upper data (s.setReceiver r) = (mergeWrite i o lower upper data s).setReceiver r := by
  have hmerged := withMerged_setReceiver s r i o lower upper data
  exact ite_setReceiver ((congrArg (closeEntry i) hmerged).trans (closeEntry_setReceiver ..)) hmerged

theorem absorbWrite_setReceiver (c : Cycle) :
    absorbWrite c (s.setReceiver r) = (absorbWrite c s).map (·.setReceiver r) := by
  unfold absorbWrite
  rw [gatheringFor_setReceiver, emptyEntry_setReceiver]
  dsimp only
  split
  · exact congrArg some (mergeWrite_setReceiver ..)
  · split
    · exact congrArg some (mergeWrite_setReceiver (openEntry _ c.page s) r ..)
    · rfl

theorem retryHeld_setReceiver : retryHeld (s.setReceiver r) = (retryHeld s).setReceiver r := by
  unfold retryHeld
  rw [waiting_setReceiver]
  split
  case h_1 c _ =>
    rw [absorbWrite_setReceiver]
    cases absorbWrite c s <;> rfl
  case h_2 => rfl

theorem releaseEntry_setReceiver (i : Fin 8) :
    releaseEntry i (s.setReceiver r) = (releaseEntry i s).setReceiver r := by
  refine (congrArg retryHeld ?_).trans (retryHeld_setReceiver _ r)
  exact ite_setReceiver rfl rfl

theorem flushStaging_setReceiver : flushStaging (s.setReceiver r) = (flushStaging s).setReceiver r := by
  have hclose := closeAll_setReceiver s.marked r
  rw [flushStaging_eq, flushStaging_eq, show (s.setReceiver r).marked = s.marked.setReceiver r from rfl, hclose]
  exact ite_setReceiver rfl rfl

theorem resumeEntry_setReceiver : resumeEntry (s.setReceiver r) = (resumeEntry s).setReceiver r := by
  unfold resumeEntry
  rw [findEntry_setReceiver]
  split <;> rfl

theorem resumeCommit_setReceiver : resumeCommit (s.setReceiver r) = (resumeCommit s).setReceiver r := by
  unfold resumeCommit
  rw [resumeEntry_setReceiver]
  rfl

theorem addCause_setReceiver (c : Cause) : addCause c (s.setReceiver r) = (addCause c s).setReceiver r := by
  refine ite_setReceiver rfl (ite_setReceiver ?_ rfl)
  refine (congrArg refuseHeld (closeAll_setReceiver ({ s with service := _ }.setFlag .readOnly) r)).trans ?_
  exact refuseHeld_setReceiver ..

/-! ## The page mover -/

theorem moverAsks_setReceiver (x : OpRecord) (p : Phase) (bk : BankId) (op : ReqOp) :
    moverAsks x p bk op (s.setReceiver r) = (moverAsks x p bk op s).setReceiver r :=
  handOver_setReceiver (s.setActivity _) r ..

theorem endCommit_setReceiver (i : Fin 8) (c : Counter) :
    endCommit i c (s.setReceiver r) = (endCommit i c s).setReceiver r :=
  congrArg (State.setActivity · .idle) (releaseEntry_setReceiver (s.bump c) r i)

theorem deferCommit_setReceiver (i : Fin 8) : deferCommit i (s.setReceiver r) = (deferCommit i s).setReceiver r := rfl

theorem stickCommit_setReceiver (i : Fin 8) : stickCommit i (s.setReceiver r) = (stickCommit i s).setReceiver r :=
  congrArg (fun t => (State.setFlag t .commitFailed).setActivity .idle)
    (addCause_setReceiver (s.setEntry i { s.entry i with state := .stuck }) r .commitStuck)

theorem haltReclaim_setReceiver : haltReclaim (s.setReceiver r) = (haltReclaim s).setReceiver r :=
  congrArg (fun t => (State.setReserveHold t false).setActivity .idle) (addCause_setReceiver s r .reclaimHalted)

theorem noSlot_setReceiver (x : OpRecord) : noSlot x (s.setReceiver r) = (noSlot x s).setReceiver r := by
  unfold noSlot
  split
  · exact ite_setReceiver (deferCommit_setReceiver ..) (stickCommit_setReceiver ..)
  · exact haltReclaim_setReceiver ..

theorem seekSlot_setReceiver (x : OpRecord) : seekSlot x (s.setReceiver r) = (seekSlot x s).setReceiver r := by
  unfold seekSlot
  rw [slotRequest_setReceiver]
  rcases slotRequest x.requester s with ⟨answer, t⟩
  cases answer
  · exact moverAsks_setReceiver ..
  · rfl
  · exact noSlot_setReceiver ..

theorem writeInPlace_setReceiver (x : OpRecord) (i : Fin 8) (src : SlotRef) (h : Nat) :
    writeInPlace x i src h (s.setReceiver r) = (writeInPlace x i src h s).setReceiver r := by
  have hnext : (nextHalf h fun k => imageHalf x (s.setReceiver r) k != bufferHalf (s.setReceiver r) k) =
    nextHalf h fun k => imageHalf x s k != bufferHalf s k := rfl
  unfold writeInPlace
  rw [hnext]
  split
  · exact moverAsks_setReceiver ..
  · exact endCommit_setReceiver ..

theorem decideCommit_setReceiver (x : OpRecord) (i : Fin 8) :
    decideCommit x i (s.setReceiver r) = (decideCommit x i s).setReceiver r := by
  have htest : inPlaceTest x (s.setReceiver r) = inPlaceTest x s := rfl
  refine ite_setReceiver (endCommit_setReceiver ..) ?_
  rw [htest]
  split
  · exact writeInPlace_setReceiver ..
  · exact seekSlot_setReceiver ..

theorem startCommit_setReceiver (i : Fin 8) : startCommit i (s.setReceiver r) = (startCommit i s).setReceiver r := by
  unfold startCommit
  dsimp only
  rw [entry_setReceiver, mapped_setReceiver]
  split
  · exact moverAsks_setReceiver ((startEntry i s).setActivity _) r ..
  · exact decideCommit_setReceiver (fillBuffer _ ((startEntry i s).setActivity _)) r ..

theorem scanNext_setReceiver : scanNext (s.setReceiver r) = (scanNext s).setReceiver r := by
  unfold scanNext
  rw [setReceiver_blocks]
  split
  · exact ite_setReceiver (handOver_setReceiver (s.setActivity .scanning) r ..)
      (finishVictim_setReceiver (s.setActivity .idle) r)
  · rfl

/-! ## The arbiter -/

@[simp] theorem granted_setReceiver : (s.setReceiver r).granted = s.granted := rfl

theorem grantOnce_setReceiver : grantOnce (s.setReceiver r) = (grantOnce s).setReceiver r := by
  refine ite_setReceiver ?_ rfl
  rw [granted_setReceiver, setReceiver_staging]
  split
  · exact startCommit_setReceiver (noteGrant .commit s) r _
  · exact scanNext_setReceiver (noteGrant .move s) r
  · rfl

theorem arbitrate_setReceiver (n : Nat) : arbitrate n (s.setReceiver r) = (arbitrate n s).setReceiver r := by
  induction n generalizing s with
  | zero => rfl
  | succ n ih =>
    refine ite_setReceiver ?_ rfl
    rw [grantOnce_setReceiver, ih]

/-- R51, R98: what follows an event does not look at the frame receiver. -/
@[simp] theorem settle_setReceiver : settle (s.setReceiver r) = (settle s).setReceiver r := by
  rw [settle, arbitrate_setReceiver, kickBanks_setReceiver, settle]

end Sys2Proof.Machine
end

section
/-! SUPPORT. The frame receiver is of no account to what a management command does at its taking (R164): resets, drains,
the format and the answers. -/

-- In order: as one text the package would start more threads than memory has stacks for.
set_option Elab.async false

namespace Sys2Proof.Machine

variable (s : State) (r : Receiver)

/-! ## The internal reset (R113, R161) -/

@[simp] theorem setFlash_setReceiver (bk : BankId) (f : Flash) :
    (s.setReceiver r).setFlash bk f = (s.setFlash bk f).setReceiver r := by cases bk <;> rfl

theorem halfDone_setReceiver (bk : BankId) (c : ReqClass) (timedOut : Bool) (slot : SlotRef) (h : Fin 256)
    (v : HalfWord) : halfDone bk c timedOut slot h v (s.setReceiver r) =
      (halfDone bk c timedOut slot h v s).setReceiver r := by
  simp only [halfDone, flash_setReceiver, setFlash_setReceiver]
  rfl

theorem eraseArray_setReceiver (b : BlockRef) (pass : Bool) :
    eraseArray b pass (s.setReceiver r) = (eraseArray b pass s).setReceiver r := by
  refine ite_setReceiver ?_ (ite_setReceiver rfl ?_)
  · rw [flash_setReceiver, setFlash_setReceiver]
  · rw [flash_setReceiver, setFlash_setReceiver]
    rfl

theorem interruptProgram_setReceiver (bk : BankId) :
    interruptProgram bk (s.setReceiver r) = (interruptProgram bk s).setReceiver r := by
  unfold interruptProgram
  rw [bank_setReceiver]
  split
  · exact halfDone_setReceiver ..
  · exact halfDone_setReceiver ..
  · rfl
  · rfl

theorem interruptErase_setReceiver (bk : BankId) :
    interruptErase bk (s.setReceiver r) = (interruptErase bk s).setReceiver r := by
  unfold interruptErase
  rw [bank_setReceiver]
  split
  · exact eraseArray_setReceiver ..
  · rfl

theorem interruptFlash_setReceiver : interruptFlash (s.setReceiver r) = (interruptFlash s).setReceiver r := by
  simp only [interruptFlash, interruptBank, interruptProgram_setReceiver, interruptErase_setReceiver]

theorem resetBlocks_setReceiver : resetBlocks (s.setReceiver r) = (resetBlocks s).setReceiver r := by
  unfold resetBlocks
  rw [interruptFlash_setReceiver]
  rfl

theorem beginBankReset_setReceiver (bk : BankId) :
    beginBankReset bk (s.setReceiver r) = (beginBankReset bk s).setReceiver r := by
  simp [beginBankReset]

theorem beginMount_setReceiver : beginMount (s.setReceiver r) = (beginMount s).setReceiver r := by
  have hfirst := fun x : Engine => beginBankReset_setReceiver (s.setEngine x) r .a
  refine ite_setReceiver ?_ (hfirst _)
  exact (congrArg (beginBankReset .b) (hfirst _)).trans (beginBankReset_setReceiver ..)

theorem internalReset_setReceiver : internalReset (s.setReceiver r) = (internalReset s).setReceiver r := by
  rw [internalReset, resetBlocks_setReceiver, beginMount_setReceiver, internalReset]

/-! ## Drains (R154, R155) -/

theorem assertLine_setReceiver : assertLine (s.setReceiver r) = (assertLine s).setReceiver r := ite_setReceiver rfl rfl

theorem completeDrain_setReceiver : completeDrain (s.setReceiver r) = (completeDrain s).setReceiver r :=
  ite_setReceiver (assertLine_setReceiver (s.setService .drained) r)
    (ite_setReceiver (internalReset_setReceiver s r) (enterActive_setReceiver (setReturn none s) r))

theorem testDrain_setReceiver : testDrain (s.setReceiver r) = (testDrain s).setReceiver r :=
  ite_setReceiver (completeDrain_setReceiver s r) rfl

theorem startDrain_setReceiver : startDrain (s.setReceiver r) = (startDrain s).setReceiver r := by
  have hclose := closeAll_setReceiver s.draining r
  exact congrArg (State.setReserveHold · false) ((congrArg refuseHeld hclose).trans (refuseHeld_setReceiver ..))

/-! ## The takings (R164) -/

/-- What a command does at its taking, with another receiver left. -/
def withReceiver (r : Receiver) (t : Taken) : Taken := (t.1, t.2.setReceiver r)

theorem ite_withReceiver {r : Receiver} {p : Prop} [Decidable p] {a b x y : Taken} (ha : x = withReceiver r a)
    (hb : y = withReceiver r b) : (if p then x else y) = withReceiver r (if p then a else b) := by
  split
  · exact ha
  · exact hb

theorem takeReadParam_setReceiver (id : Byte) :
    takeReadParam id (s.setReceiver r) = withReceiver r (takeReadParam id s) := by
  have hget : (s.setReceiver r).mgmt.params.get id.toNat = s.mgmt.params.get id.toNat := rfl
  unfold takeReadParam
  rw [hget]
  split <;> rfl

theorem takeWriteParam_setReceiver (id : Byte) (v : BitVec 16) :
    takeWriteParam id v (s.setReceiver r) = withReceiver r (takeWriteParam id v s) := by
  have htriggers := evaluateTriggers_setReceiver (setParam id.toNat v.toNat s) r
  refine ite_withReceiver (congrArg (Prod.mk (resOk [])) (ite_setReceiver ?_ rfl)) rfl
  exact (congrArg settle htriggers).trans (settle_setReceiver ..)

theorem takeFlush_setReceiver : takeFlush (s.setReceiver r) = withReceiver r (takeFlush s) := by
  refine ite_withReceiver (congrArg (Prod.mk (resOk [])) ?_) rfl
  rw [flushStaging_setReceiver, settle_setReceiver]

theorem takeResumeCommit_setReceiver : takeResumeCommit (s.setReceiver r) = withReceiver r (takeResumeCommit s) := by
  refine ite_withReceiver (congrArg (Prod.mk (resOk [])) ?_) rfl
  rw [resumeCommit_setReceiver, settle_setReceiver]

theorem takeFormatCommand_setReceiver (pages : BitVec 16) :
    takeFormatCommand pages (s.setReceiver r) = withReceiver r (takeFormatCommand pages s) :=
  ite_withReceiver rfl (ite_withReceiver rfl rfl)

theorem takeRestart_setReceiver : takeRestart (s.setReceiver r) = withReceiver r (takeRestart s) := by
  unfold takeRestart
  rw [setReceiver_service]
  split
  case h_1 =>
    refine congrArg (Prod.mk (resOk [])) ((congrArg settle (startDrain_setReceiver (setRestart s) r)).trans ?_)
    exact settle_setReceiver ..
  case h_2 => exact congrArg (Prod.mk (resOk [])) (internalReset_setReceiver s r)
  case h_3 => exact congrArg (Prod.mk (resOk [])) (testDrain_setReceiver (setRestart s) r)
  all_goals rfl

theorem takeQueryPage_setReceiver (lpn : BitVec 16) :
    takeQueryPage lpn (s.setReceiver r) = withReceiver r (takeQueryPage lpn s) :=
  ite_withReceiver rfl (ite_withReceiver rfl rfl)

theorem takeQueryBlock_setReceiver (bank index : Byte) :
    takeQueryBlock bank index (s.setReceiver r) = withReceiver r (takeQueryBlock bank index s) := by
  refine ite_withReceiver rfl ?_
  rw [setReceiver_service]
  split <;> rfl

theorem takeReadCounter_setReceiver (id : Byte) :
    takeReadCounter id (s.setReceiver r) = withReceiver r (takeReadCounter id s) := by
  unfold takeReadCounter
  by_cases h : id.toNat < 10
  · rw [dif_pos h, dif_pos h]
    rfl
  · rw [dif_neg h, dif_neg h]
    rfl

/-- R164: a command is taken alike whatever the receiver holds. -/
theorem takeCommand_setReceiver (code : Byte) (args : List Byte) :
    takeCommand code args (s.setReceiver r) = withReceiver r (takeCommand code args s) := by
  unfold takeCommand
  dsimp only
  split
  case h_6 => exact takeReadParam_setReceiver ..
  case h_7 => exact takeWriteParam_setReceiver ..
  case h_8 => exact takeFlush_setReceiver ..
  case h_9 => exact takeResumeCommit_setReceiver ..
  case h_10 => exact takeFormatCommand_setReceiver ..
  case h_11 => exact takeRestart_setReceiver ..
  case h_12 => exact takeQueryPage_setReceiver ..
  case h_13 => exact takeQueryBlock_setReceiver ..
  case h_14 => exact takeReadCounter_setReceiver ..
  all_goals rfl

/-- R164: the response captured leaves nothing of what the receiver held. -/
theorem capture_takeCommand (code : Byte) (args : List Byte) :
    capture code args (takeCommand code args (s.setReceiver r)) = capture code args (takeCommand code args s) := by
  rw [takeCommand_setReceiver]
  rfl

end Sys2Proof.Machine
end

section
/-! PROOF. A frame clocked in bit by bit has the effect of its command's own row (R163, R164). -/

-- In order: as one text the package would start more threads than memory has stacks for.
set_option Elab.async false

namespace Sys2Proof.Machine

/-! ## Bits and bytes -/

theorem length_bitsOf (b : Byte) : (bitsOf b).length = 8 := rfl

theorem byteOfBits_bitsOf : ∀ b : Byte, byteOfBits (bitsOf b) = b := by decide

theorem wordBE_argWord (w : BitVec 16) : wordBE ((w >>> 8).setWidth 8) (w.setWidth 8) = w := by
  refine BitVec.eq_of_getLsbD_eq fun i hi => ?_
  rw [wordBE, BitVec.getLsbD_append]
  by_cases hlow : i < 8
  · simp [hlow]
  · have hback : 8 + (i - 8) = i := by omega
    have hbyte : i - 8 < 8 := by omega
    simp [hlow, hback, hbyte]

/-! ## SCK edges -/

/-- The state after SCK has clocked these bits in, first bit first. -/
def State.clocked (bits : List Bool) (s : State) : State := bits.foldl (fun t b => clockBit b t) s

theorem execAll_sck (bits : List Bool) (s : State) :
    execAll (bits.map Instr.sckRisingEdge) s = .next (s.clocked bits) := by
  induction bits generalizing s with
  | nil => rfl
  | cons b bits ih => exact ih (clockBit b s)

theorem clocked_append (s : State) (l m : List Bool) : s.clocked (l ++ m) = (s.clocked l).clocked m :=
  List.foldl_append ..

/-- R163: the bits of a byte are noted until the byte is complete. -/
theorem clocked_part (l : List Bool) {s : State} {r : Receiver} (h : r.state = .command ∨ r.state = .arguments)
    (hlen : r.bits.length + l.length ≤ 7) :
    (s.setReceiver r).clocked l = s.setReceiver { r with bits := r.bits ++ l } := by
  induction l generalizing r with
  | nil => rw [List.append_nil]; rfl
  | cons b l ih =>
    rw [List.length_cons] at hlen
    have hbit := clockBit_of_part (s := s.setReceiver r) b h (by show r.bits.length < 7; omega)
    have hrest := ih (r := { r with bits := r.bits ++ [b] }) h (by simp; omega)
    rw [List.append_assoc] at hrest
    exact (congrArg (State.clocked l) hbit).trans hrest

/-- R163: the eighth bit of a byte completes it. -/
theorem clocked_byte (b : Byte) (s : State) {r : Receiver} (h : r.state = .command ∨ r.state = .arguments)
    (hbits : r.bits = []) : (s.setReceiver r).clocked (bitsOf b) =
      clockBit (b.getLsbD 0) (s.setReceiver { r with bits := (bitsOf b).take 7 }) := by
  have hseven := clocked_part ((bitsOf b).take 7) (s := s) h (by rw [hbits]; exact le_refl 7)
  rw [hbits, List.nil_append] at hseven
  exact (clocked_append (s.setReceiver r) ((bitsOf b).take 7) [b.getLsbD 0]).trans
    (congrArg (State.clocked [b.getLsbD 0]) hseven)

theorem bitsOf_eq (b : Byte) : (bitsOf b).take 7 ++ [b.getLsbD 0] = bitsOf b := rfl

theorem clocked_command (code : Byte) (s : State) {r : Receiver} (h : r.state = .command) (hbits : r.bits = []) :
    (s.setReceiver r).clocked (bitsOf code) =
      commandByte code (s.setReceiver { r with bits := (bitsOf code).take 7 }) := by
  rw [clocked_byte code s (.inl h) hbits]
  simp only [clockBit, setReceiver_mgmt, h, bitsOf_eq, length_bitsOf, if_true, byteOfBits_bitsOf]

theorem clocked_argument (b : Byte) (s : State) {r : Receiver} {code : Byte} (h : r.state = .arguments)
    (hbits : r.bits = []) (hcmd : r.cmd = some code) : (s.setReceiver r).clocked (bitsOf b) =
      argumentByte code (r.args ++ [b]) (s.setReceiver { r with bits := (bitsOf b).take 7 }) := by
  rw [clocked_byte b s (.inr h) hbits]
  simp only [clockBit, setReceiver_mgmt, h, hcmd, bitsOf_eq, length_bitsOf, if_true, byteOfBits_bitsOf]

/-! ## Bytes of a frame -/

/-- The receiver in ARGUMENTS with these argument bytes complete. -/
def argumentsRx (code : Byte) (args : List Byte) : Receiver :=
  { Receiver.reset with state := .arguments, cmd := some code, args := args }

theorem argumentByte_of_last {code : Byte} {args : List Byte} (h : args.length = argCount code) (s : State) :
    argumentByte code args s = capture code args (takeCommand code args s) := if_pos h

theorem argumentByte_of_more {code : Byte} {args : List Byte} (h : args.length ≠ argCount code) (s : State) :
    argumentByte code args s = s.setReceiver (argumentsRx code args) := if_neg h

theorem commandByte_of_bare {code : Byte} (hknown : knownCode code = true) (h : argCount code = 0) (s : State) :
    commandByte code s = capture code [] (takeCommand code [] s) := by
  rw [commandByte, hknown, if_neg (by decide), if_pos h]

theorem commandByte_of_more {code : Byte} (hknown : knownCode code = true) (h : argCount code ≠ 0) (s : State) :
    commandByte code s = s.setReceiver (argumentsRx code []) := by
  rw [commandByte, hknown, if_neg (by decide), if_neg h]
  rfl

theorem setReceiver_setReceiver (s : State) (x y : Receiver) : (s.setReceiver x).setReceiver y = s.setReceiver y := rfl

/-- R163: the last argument byte takes the command. -/
theorem clocked_arguments (code : Byte) (rest : List Byte) (s : State) (args : List Byte) (hrest : rest ≠ [])
    (hlen : (args ++ rest).length = argCount code) :
    (s.setReceiver (argumentsRx code args)).clocked (rest.flatMap bitsOf) =
      capture code (args ++ rest) (takeCommand code (args ++ rest) s) := by
  induction rest generalizing args with
  | nil => exact absurd rfl hrest
  | cons b rest ih =>
    have hbyte : (s.setReceiver (argumentsRx code args)).clocked (bitsOf b) =
      argumentByte code (args ++ [b]) (s.setReceiver _) := clocked_argument b s (r := argumentsRx code args) rfl rfl rfl
    rw [List.flatMap_cons, clocked_append, hbyte]
    cases rest with
    | nil =>
      rw [argumentByte_of_last hlen]
      exact capture_takeCommand ..
    | cons d rest =>
      have hmore : (args ++ [b]).length ≠ argCount code := by
        rw [← hlen]; simp
      rw [argumentByte_of_more hmore, setReceiver_setReceiver, List.append_cons args b (d :: rest)]
      exact ih (args ++ [b]) (by simp) (by rw [← hlen]; simp)

/-- R163, R164: the frame of a command, clocked in whole, takes the command. -/
theorem clocked_frame (code : Byte) (args : List Byte) {s : State} (hstate : s.mgmt.receiver.state = .command)
    (hbits : s.mgmt.receiver.bits = []) (hknown : knownCode code = true) (hlen : args.length = argCount code) :
    s.clocked (bitsOf code ++ args.flatMap bitsOf) = capture code args (takeCommand code args s) := by
  have hcode : s.clocked (bitsOf code) = commandByte code (s.setReceiver _) :=
    clocked_command code s (r := s.mgmt.receiver) hstate hbits
  rw [clocked_append, hcode]
  cases args with
  | nil =>
    rw [commandByte_of_bare hknown hlen.symm]
    exact capture_takeCommand ..
  | cons b args =>
    rw [commandByte_of_more hknown (by rw [← hlen]; simp)]
    rw [setReceiver_setReceiver]
    exact clocked_arguments code (b :: args) s [] (by simp) hlen

/-! ## The command's own row (R164; log 12) -/

theorem next_of_body {code : Byte} {args : List Byte} {body taking : State → Taken} (h : taking = body) (s : State) :
    (Host.Outcome.next (takeFrame code args body s) : Host.Outcome State Fault Refusal) =
      .next (takeFrame code args taking s) := by rw [h]

/-- The row of a command takes the command that its frame names. -/
theorem exec_of_commandFrame {c : Instr} {code : Byte} {args : List Byte} (h : commandFrame c = some (code, args))
    (s : State) : knownCode code = true ∧ args.length = argCount code ∧
      exec c s = .next (takeFrame code args (takeCommand code args) s) := by
  cases c <;> cases h <;> refine ⟨rfl, rfl, ?_⟩
  case clearFlags w => exact next_of_body (congrArg takeClearFlags (wordBE_argWord w)) s
  case setAlertMask w => exact next_of_body (congrArg takeSetAlertMask (wordBE_argWord w)) s
  case writeParam id w => exact next_of_body (congrArg (takeWriteParam id) (wordBE_argWord w)) s
  case format w => exact next_of_body (congrArg takeFormatCommand (wordBE_argWord w)) s
  case queryPage w => exact next_of_body (congrArg takeQueryPage (wordBE_argWord w)) s
  all_goals rfl

/-- A receiver that has sampled nothing allows the frame of every command (R163). -/
theorem frameAllows_of_fresh {s : State} (code : Byte) (args : List Byte) (hstate : s.mgmt.receiver.state = .command)
    (hbits : s.mgmt.receiver.bits = []) (hcmd : s.mgmt.receiver.cmd = none) (hargs : s.mgmt.receiver.args = []) :
    s.frameAllows code args := by
  have hsampled : s.mgmt.receiver.sampled = [] := by simp [Receiver.sampled, hbits, hcmd, hargs]
  refine ⟨by simp [Receiver.receiving, hstate], ?_⟩
  rw [hsampled]
  rfl

/-- Settles O47: bit by bit the frame is noted until its last byte takes the command, alike whatever the receiver
holds; the command's own row takes the same command. -/
theorem clockedFramesEqualTheirCommands : Obligations.ClockedFramesEqualTheirCommands := by
  intro c code args s hframe hstate hbits hcmd hargs
  obtain ⟨hknown, hlen, hexec⟩ := exec_of_commandFrame hframe s
  rw [execAll_sck, clocked_frame code args hstate hbits hknown hlen, hexec,
    takeFrame_of_allows _ (frameAllows_of_fresh code args hstate hbits hcmd hargs)]
  rfl

end Sys2Proof.Machine
end
